-- ==== Sys2Proof/Word.lean ====
section
/-! DEFINITION. The words of the EPCB: 8-bit bytes, 32-bit registers, 16-bit addresses and operands (00_scope.md R8),
and byte strings of a fixed length (R9). -/

namespace Sys2Proof

/-- One byte of a byte string (R9). -/
abbrev Byte := BitVec 8

/-- One register, one bus word, one command word: bit 31 is the most significant (R8). -/
abbrev Word := BitVec 32

/-- A bus address (20_memory.md R81) and the fields OFF and LEN (10_state.md R29, R30). -/
abbrev Half := BitVec 16

/-- A byte string s[0], s[1], ..., s[n-1] of n bytes (R9). -/
abbrev Bytes (n : Nat) := Vector Byte n

/-- The byte string 0^n (R9). -/
abbrev Bytes.zero (n : Nat) : Bytes n := Vector.replicate n 0

end Sys2Proof
end

