-- ==== Sys2Proof/Config.lean ====
section
/-! DEFINITION. What an implementation of the EPCB fixes (00_scope.md R5) and the values the spec leaves free
(93_implementation_defined.md I1, I3). Nothing here has a value that Lean could compute. -/

namespace Sys2Proof

/-- The parameters that are plain data. BUF_BYTES is the size in bytes of BUF (R5, 92_eei_decisions.md D3).
A state carries them, so that a statement over every state is a statement over every BUF size. -/
structure Params where
  bufBytes : Nat
  deriving DecidableEq, Repr

/-- The block primitives as parameters (R5, D4): total functions of a key and a block. -/
structure Primitives where
  desE : Bytes 8 → Bytes 8 → Bytes 8
  desD : Bytes 8 → Bytes 8 → Bytes 8
  aesE : Bytes 16 → Bytes 16 → Bytes 16
  aesD : Bytes 16 → Bytes 16 → Bytes 16

/-- The inversion hypothesis of 42_block_chaining.md R198. R6: it is a named hypothesis, never a fact of the model. -/
structure Primitives.Inverts (P : Primitives) : Prop where
  desD_desE : ∀ k y, P.desD k (P.desE k y) = y
  desE_desD : ∀ k y, P.desE k (P.desD k y) = y
  aesD_aesE : ∀ k y, P.aesD k (P.aesE k y) = y
  aesE_aesD : ∀ k y, P.aesE k (P.aesD k y) = y

/-- DES_E(k, x) of R5: opaque (R6). Log entry 1. -/
opaque Config.desE : Bytes 8 → Bytes 8 → Bytes 8

/-- DES_D(k, x) of R5: opaque (R6). Log entry 1. -/
opaque Config.desD : Bytes 8 → Bytes 8 → Bytes 8

/-- AES_E(k, x) of R5: opaque (R6). Log entry 1. -/
opaque Config.aesE : Bytes 16 → Bytes 16 → Bytes 16

/-- AES_D(k, x) of R5: opaque (R6). Log entry 1. -/
opaque Config.aesD : Bytes 16 → Bytes 16 → Bytes 16

/-- The primitives this machine is built with. -/
def Config.primitives : Primitives where
  desE := Config.desE
  desD := Config.desD
  aesE := Config.aesE
  aesD := Config.aesD

/-- FREE VALUE: the byte that BUF[i] holds after the reset numbered `epoch`, until something writes it
(10_state.md R48, I1: "each byte holds an arbitrary value"). Log entry 3. -/
opaque Config.freeByte : (epoch : Nat) → (i : Nat) → Byte

/-- FREE VALUE: what the busy read numbered `draw` returns (10_state.md R35, I3: "a model draws it freely, and two
reads may differ"). Log entry 4. -/
opaque Config.freeRead : (draw : Nat) → Word

end Sys2Proof
end

