-- ==== Sys2Proof/Syntax.lean ====
section
/-! DEFINITION. The seven commands of the EPCB with their operands (30_encoding.md R110 to R114), and the assembler
text of R119. -/

namespace Sys2Proof

/-- Field CTX: the key context (R112, 10_state.md R40). -/
inductive Ctx where
  /-- CTX = 0, written E: the explicit context 0. -/
  | explicit
  /-- CTX = 1, written S: the session context 1. -/
  | session
  deriving DecidableEq, Repr

/-- Field DIR: whether the IV is XORed in before or after the block operation (R113). -/
inductive Dir where
  /-- DIR = 0, written SEND. -/
  | send
  /-- DIR = 1, written RECV. -/
  | receive
  deriving DecidableEq, Repr

/-- Field OP: which primitive the block operation uses (R114). -/
inductive CipherOp where
  /-- OP = 0, written ENC: the encrypt primitives. -/
  | encipher
  /-- OP = 1, written DEC: the decrypt primitives. -/
  | decipher
  deriving DecidableEq, Repr

/-- The commands: one constructor for each row of spec/opcode_table.json (R111). -/
inductive Instr where
  /-- CRC16 (40_checksum.md R146). -/
  | crc16
  /-- CRC16A, the append form (R147). -/
  | crc16a
  /-- CRC32 (R148). -/
  | crc32
  /-- CRC32A, the append form (R149). -/
  | crc32a
  /-- CBC1 ctx, dir, op (42_block_chaining.md R194). -/
  | cbc1 (ctx : Ctx) (dir : Dir) (op : CipherOp)
  /-- CBCN ctx, dir, op (R195). -/
  | cbcn (ctx : Ctx) (dir : Dir) (op : CipherOp)
  /-- DERIVE ctx (41_keys_subkeys.md R177). -/
  | derive (ctx : Ctx)
  deriving DecidableEq, Repr

/-- The value of field CTX (R112). -/
def Ctx.code : Ctx → Nat
  | .explicit => 0
  | .session => 1

/-- The value of field DIR (R113). -/
def Dir.code : Dir → Nat
  | .send => 0
  | .receive => 1

/-- The value of field OP (R114). -/
def CipherOp.code : CipherOp → Nat
  | .encipher => 0
  | .decipher => 1

/-- The value of field OPC (R111). -/
def Instr.opcode : Instr → Nat
  | .crc16 => 1
  | .crc16a => 2
  | .crc32 => 3
  | .crc32a => 4
  | .cbc1 _ _ _ => 5
  | .cbcn _ _ _ => 6
  | .derive _ => 7

/-- The operand <ctx> as R119 writes it. -/
def Ctx.text : Ctx → String
  | .explicit => "E"
  | .session => "S"

/-- The operand <dir> as R119 writes it. -/
def Dir.text : Dir → String
  | .send => "SEND"
  | .receive => "RECV"

/-- The operand <op> as R119 writes it. -/
def CipherOp.text : CipherOp → String
  | .encipher => "ENC"
  | .decipher => "DEC"

/-- The command as R119 writes it: the mnemonic followed by its operands. -/
def Instr.text : Instr → String
  | .crc16 => "CRC16"
  | .crc16a => "CRC16A"
  | .crc32 => "CRC32"
  | .crc32a => "CRC32A"
  | .cbc1 c d o => "CBC1 " ++ c.text ++ ", " ++ d.text ++ ", " ++ o.text
  | .cbcn c d o => "CBCN " ++ c.text ++ ", " ++ d.text ++ ", " ++ o.text
  | .derive c => "DERIVE " ++ c.text

end Sys2Proof
end

