-- ==== Sys2Proof/WellFormed.lean ====
section
/-! DEFINITION. The checks on what the machine is given: the operands of a command, a raw command word
(30_encoding.md R115), and the parameters (00_scope.md R5). -/

namespace Sys2Proof

/-- A field of `bits` bits can hold `code`. -/
def fitsField (bits code : Nat) : Bool := decide (code < 2 ^ bits)

/-- Every field of the command fits its place in the word (R110). The operand types already admit only legal values,
so no term of `Instr` fails this; the raw form below is where a word can be ill-formed. -/
def Instr.wellFormed (i : Instr) : Bool :=
  fitsField 4 i.opcode &&
    match i with
    | .crc16 => true
    | .crc16a => true
    | .crc32 => true
    | .crc32a => true
    | .cbc1 c d o => fitsField 1 c.code && fitsField 1 d.code && fitsField 1 o.code
    | .cbcn c d o => fitsField 1 c.code && fitsField 1 d.code && fitsField 1 o.code
    | .derive c => fitsField 1 c.code

/-- R115 (a): bits 31:7 are not all 0. -/
def Word.highBitsSet (v : Word) : Bool := decide (2 ^ 7 ≤ v.toNat)

/-- R115 (b): OPC is 0x0 or is 0x8 to 0xF. -/
def Word.badOpcode (v : Word) : Bool := decide (v.toNat % 16 = 0 ∨ 8 ≤ v.toNat % 16)

/-- R115 (c): OPC is 0x1 to 0x4 and bits 6:4 are not all 0. -/
def Word.badCrcFields (v : Word) : Bool :=
  decide (1 ≤ v.toNat % 16 ∧ v.toNat % 16 ≤ 4 ∧ v.toNat / 16 % 8 ≠ 0)

/-- R115 (d): OPC is 0x7 and bits 6:5 are not all 0. -/
def Word.badDeriveFields (v : Word) : Bool :=
  decide (v.toNat % 16 = 7 ∧ v.toNat / 32 % 4 ≠ 0)

/-- A reserved command word (R115): any of (a) to (d) holds. -/
def Word.reserved (v : Word) : Bool :=
  Word.highBitsSet v || Word.badOpcode v || Word.badCrcFields v || Word.badDeriveFields v

/-- The legal values of BUF_BYTES (R5): a multiple of 16, 16 <= BUF_BYTES <= 32768. -/
def Params.wellFormed (p : Params) : Bool :=
  decide (p.bufBytes % 16 = 0) && decide (16 ≤ p.bufBytes) && decide (p.bufBytes ≤ 32768)

end Sys2Proof
end

