-- ==== Sys2Proof/Decode.lean ====
section
/-! DEFINITION. The command word: the decode function of 30_encoding.md R117, total on 32-bit words and rejecting by
name, and after it the encoder of R110 and R118. -/

namespace Sys2Proof

/-- Why a command word is no command: the four cases of R115. -/
inductive ReservedWord where
  /-- R115 (a): bits 31:7 are not all 0. -/
  | highBits
  /-- R115 (b): OPC names no command. -/
  | opcode
  /-- R115 (c): a CRC opcode with CTX, DIR or OP set. -/
  | crcFields
  /-- R115 (d): DERIVE with DIR or OP set. -/
  | deriveFields
  deriving DecidableEq, Repr

/-- Field OPC, bits 3:0 (R110). -/
def fieldOpc (v : Word) : BitVec 4 := v.extractLsb' 0 4

/-- Field CTX, bit 4 (R112). -/
def fieldCtx (v : Word) : Ctx := if v.getLsbD 4 then .session else .explicit

/-- Field DIR, bit 5 (R113). -/
def fieldDir (v : Word) : Dir := if v.getLsbD 5 then .receive else .send

/-- Field OP, bit 6 (R114). -/
def fieldOp (v : Word) : CipherOp := if v.getLsbD 6 then .decipher else .encipher

/-- Bits 31:7 of a command word (R110). -/
def fieldHigh (v : Word) : BitVec 25 := v.extractLsb' 7 25

/-- A command whose CTX, DIR and OP must be 0 (R111). -/
def decodeBare (v : Word) (i : Instr) : Except ReservedWord Instr :=
  if v.extractLsb' 4 3 = 0#3 then .ok i else .error .crcFields

/-- decode(v) of R117. -/
def decode (v : Word) : Except ReservedWord Instr :=
  if fieldHigh v ≠ 0#25 then .error .highBits
  else
    match (fieldOpc v).toNat with
    | 1 => decodeBare v .crc16
    | 2 => decodeBare v .crc16a
    | 3 => decodeBare v .crc32
    | 4 => decodeBare v .crc32a
    | 5 => .ok (.cbc1 (fieldCtx v) (fieldDir v) (fieldOp v))
    | 6 => .ok (.cbcn (fieldCtx v) (fieldDir v) (fieldOp v))
    | 7 => if v.extractLsb' 5 2 = 0#2 then .ok (.derive (fieldCtx v)) else .error .deriveFields
    | _ => .error .opcode

/-- The instruction the decoder reads from the table's number `w` (spec/opcode_table.json: one 32-bit word, bit 0 the
least significant); every bit above the table's `nbits` is 0. -/
def decodeTableWord (nbits w : Nat) : Option Instr :=
  match decode (BitVec.ofNat 32 (w % 2 ^ nbits)) with
  | .ok i => some i
  | .error _ => none

/-- The fields CTX, DIR and OP at their weights (R118: 0x10*ctx + 0x20*dir + 0x40*op). -/
def operandBits (c : Ctx) (d : Dir) (o : CipherOp) : Nat :=
  0x10 * c.code + 0x20 * d.code + 0x40 * o.code

/-- The legal word of a command (R118). -/
def encode : Instr → Word
  | .crc16 => 0x00000001#32
  | .crc16a => 0x00000002#32
  | .crc32 => 0x00000003#32
  | .crc32a => 0x00000004#32
  | .cbc1 c d o => BitVec.ofNat 32 (0x05 + operandBits c d o)
  | .cbcn c d o => BitVec.ofNat 32 (0x06 + operandBits c d o)
  | .derive c => BitVec.ofNat 32 (0x07 + operandBits c .send .encipher)

/-- One row of spec/opcode_table.json: a word is the row's command when its bits under `mask` are `pattern`. -/
structure OpcodeRow where
  mnemonic : String
  pattern : Word
  mask : Word
  deriving DecidableEq, Repr

/-- The word matches the row. -/
def OpcodeRow.matches (r : OpcodeRow) (v : Word) : Bool := v &&& r.mask == r.pattern

/-- The match and mask columns of spec/opcode_table.json, row by row. -/
def opcodeTable : List OpcodeRow :=
  [⟨"CRC16", 0x00000001, 0xFFFFFFFF⟩, ⟨"CRC16A", 0x00000002, 0xFFFFFFFF⟩, ⟨"CRC32", 0x00000003, 0xFFFFFFFF⟩,
   ⟨"CRC32A", 0x00000004, 0xFFFFFFFF⟩, ⟨"CBC1", 0x00000005, 0xFFFFFF8F⟩, ⟨"CBCN", 0x00000006, 0xFFFFFF8F⟩,
   ⟨"DERIVE", 0x00000007, 0xFFFFFFEF⟩]

/-- The command's row in `opcodeTable`. -/
def Instr.mnemonic : Instr → String
  | .crc16 => "CRC16"
  | .crc16a => "CRC16A"
  | .crc32 => "CRC32"
  | .crc32a => "CRC32A"
  | .cbc1 _ _ _ => "CBC1"
  | .cbcn _ _ _ => "CBCN"
  | .derive _ => "DERIVE"

end Sys2Proof
end

