-- ==== Sys2Proof/Machine/State.lean ====
section
/-! DEFINITION. The state of the EPCB as plain data (10_state.md R20), the inputs that reach it (bus accesses, the
scheduler's turns, the reset input), its state after reset (R48), and the reasons a step can stop. -/

namespace Sys2Proof.Machine

/-- TYPE[c], two bits: the key algorithm (41_keys_subkeys.md R170). -/
inductive KeyType where
  /-- TYPE = 0: DES. -/
  | des
  /-- TYPE = 1: two-key 3DES. -/
  | tdes2
  /-- TYPE = 2: three-key 3DES (3K3DES). -/
  | tdes3
  /-- TYPE = 3: AES-128. -/
  | aes
  deriving DecidableEq, Repr

/-- CTRL.GEN, one bit (10_state.md R25). -/
inductive Generation where
  /-- GEN = 0: Legacy. -/
  | legacy
  /-- GEN = 1: New. -/
  | new
  deriving DecidableEq, Repr

/-- One key context (10_state.md R40). -/
structure KeyContext where
  /-- TYPE[c], 2 bits (R41). -/
  keyType : KeyType
  /-- KVALID[c], 1 bit (R41). -/
  kvalid : Bool
  /-- SKVALID[c], 1 bit (R41). -/
  skvalid : Bool
  /-- KEY[c], 24 bytes (R43). -/
  key : Bytes 24
  /-- IV[c], 16 bytes (R44). -/
  iv : Bytes 16
  /-- K1[c], 16 bytes (R45). -/
  k1 : Bytes 16
  /-- K2[c], 16 bytes (R45). -/
  k2 : Bytes 16
  deriving DecidableEq, Repr

/-- A key context after reset (R48): TYPE 0, no key, every byte string 0. -/
def KeyContext.reset : KeyContext where
  keyType := .des
  kvalid := false
  skvalid := false
  key := Bytes.zero 24
  iv := Bytes.zero 16
  k1 := Bytes.zero 16
  k2 := Bytes.zero 16

/-- BUF as the bytes written since reset, by offset. An offset that is not listed holds NO SPECIFIED VALUE: it reads as
the free byte `Config.freeByte` (R48; log entry 3). -/
abbrev Memory := List Host.Cell

/-- The canonical form: offsets strictly rising. An entry is a specified byte and an unlisted offset has none, so no
entry can equal what an unlisted offset reads as (log entry 3). -/
abbrev Memory.wf (m : Memory) : Prop := (m.map Prod.fst).Pairwise (· < ·)

/-- One host access on the bus (20_memory.md R81). -/
inductive Access where
  /-- kind = Read. -/
  | read (addr : Half)
  /-- kind = Write. -/
  | write (addr : Half) (wdata : Word)
  deriving DecidableEq, Repr

/-- The bus response (R81). -/
inductive Response where
  | ok
  | error
  deriving DecidableEq, Repr

/-- The block's answer to an access (R81): the response, and rdata for a Read. -/
structure Reply where
  resp : Response
  rdata : Option Word
  deriving DecidableEq, Repr

/-- One event of the total order of 20_memory.md R89, as an input of the machine. -/
inductive Event where
  /-- The host performs a bus access. -/
  | host (a : Access)
  /-- The scheduler lets the engine take its step (60_exceptions.md R235). -/
  | engine
  /-- The reset input is asserted (70_reset_and_hazards.md R260). -/
  | reset
  deriving DecidableEq, Repr

/-- Why a step stops for good: never. The block raises no trap (60_exceptions.md R230), a failed command completes with
an error code (R236), and a misaligned access is answered with ERROR (20_memory.md R82, log entry 6), so no step and no
meaning raises a fault, and the type has no constructor. That is safe: nothing is cut short. -/
inductive Fault where
  deriving DecidableEq, Repr

/-- Why an instruction has no meaning. -/
inductive Refusal where
  /-- Raised only by an arm of `exec` that has no meaning yet; no arm raises it now. Safe: the machine stops where the
  hardware would go on. -/
  | notModelled (mnemonic : String)
  deriving DecidableEq, Repr

/-- The complete state of the block (10_state.md R20), its parameters, and after them the model's own fields. -/
structure State where
  /-- The plain-data parameters of the block, BUF_BYTES (00_scope.md R5). No event changes them. -/
  params : Params
  /-- CTRL.IE, 1 bit (R25). -/
  ie : Bool
  /-- CTRL.GEN, 1 bit (R25). -/
  gen : Generation
  /-- STATUS.BUSY, 1 bit (R26). -/
  busy : Bool
  /-- STATUS.DONE, 1 bit (R26). -/
  done : Bool
  /-- STATUS.CZ, 1 bit (R26). -/
  cz : Bool
  /-- STATUS.OVR, 1 bit (R26). -/
  ovr : Bool
  /-- STATUS.ERR, 4 bits (R26, 60_exceptions.md R233). -/
  err : BitVec 4
  /-- OFF, 16 bits (R29). -/
  off : Half
  /-- LEN, 16 bits (R30). -/
  len : Half
  /-- CRCR, 32 bits (R31). -/
  crcr : Word
  /-- PEND, 32 bits, hidden: the accepted command word (R46). -/
  pend : Word
  /-- Key context 0 (R40). -/
  ctx0 : KeyContext
  /-- Key context 1 (R40). -/
  ctx1 : KeyContext
  /-- BUF (20_memory.md R84): the bytes written since reset. -/
  buf : Memory
  /-- THE MODEL'S OWN: how many resets there have been, which selects the free bytes of BUF (log entry 3). -/
  epoch : Nat
  /-- THE MODEL'S OWN: how many free busy reads have been drawn (R35, log entry 4). -/
  draws : Nat
  /-- THE MODEL'S OWN: the events still to come, the next one first (R89, log entry 5). -/
  script : List Event
  /-- THE MODEL'S OWN: the answer to the last bus access (R81, log entry 7). -/
  reply : Option Reply
  /-- THE MODEL'S OWN: the report that the host made a misaligned access (R82, I10; log entry 6). Sticky. -/
  hostFault : Bool
  deriving DecidableEq, Repr

/-- The machine right after reset (R48). BUF_BYTES is 256, the value of the spec's test vectors (log entry 2). PEND is
0 (log entry 8). BUF lists nothing, so every byte of it is free. The model's own fields start at 0 (log entry 9). -/
def State.reset : State where
  params := ⟨256⟩
  ie := false
  gen := .legacy
  busy := false
  done := false
  cz := false
  ovr := false
  err := 0
  off := 0
  len := 0
  crcr := 0
  pend := 0
  ctx0 := KeyContext.reset
  ctx1 := KeyContext.reset
  buf := []
  epoch := 0
  draws := 0
  script := []
  reply := none
  hostFault := false

end Sys2Proof.Machine
end

