-- ==== Sys2Proof/Machine/Ops.lean ====
section
/-! DEFINITION. The named operations over byte strings, BUF and the registers, and the three events every command goes
through: acceptance (60_exceptions.md R231), normal end (R235) and `raise Error(code)` (R236). The block has no trap
entry and no trap return (R230); R236 is what stands in their place. -/

namespace Sys2Proof.Machine

/-! ### Byte strings and words (00_scope.md R9, 20_memory.md R85) -/

/-- s[i], and 0 past the end of the string. -/
def byteAt {n : Nat} (s : Bytes n) (i : Nat) : Byte := s[i]?.getD 0

/-- The m bytes of s from index i on: s[i..i+m). -/
def sliceOf {n : Nat} (s : Bytes n) (i m : Nat) : Bytes m := Vector.ofFn fun j => byteAt s (i + j.val)

/-- a XOR b (R9). -/
def xorBytes {n : Nat} (a b : Bytes n) : Bytes n := Vector.ofFn fun i => a[i] ^^^ b[i]

/-- s ‖ 0^(m - n), for n <= m. -/
def padZero {n : Nat} (m : Nat) (s : Bytes n) : Bytes m := Vector.ofFn fun i => byteAt s i.val

/-- `whole` with its first bytes replaced by `first`: whole[0..n) <- first. -/
def replaceFirst {n m : Nat} (first : Bytes n) (whole : Bytes m) : Bytes m :=
  Vector.ofFn fun i => if i.val < n then byteAt first i.val else whole[i]

/-- be(s): s[0] is the most significant byte (R9). -/
def beNat {n : Nat} (s : Bytes n) : Nat := s.toList.foldl (fun acc b => acc * 256 + b.toNat) 0

/-- be_n(v): the n-byte big-endian string of v mod 2^(8n) (R9). -/
def beBytes (n v : Nat) : Bytes n := Vector.ofFn fun i => BitVec.ofNat 8 (v >>> (8 * (n - 1 - i.val)))

/-- Bits 8i+7 to 8i of a word (R85). -/
def wordByte (v : Word) (i : Nat) : Byte := v.extractLsb' (8 * i) 8

/-- le_n(v) for n <= 4: the low n bytes of v, least significant first (R9). -/
def leBytes (n : Nat) (v : Word) : List Byte := (List.range n).map (wordByte v)

/-- Four bytes packed little-endian into a word (R85). -/
def packWord (b0 b1 b2 b3 : Byte) : Word := b3 ++ b2 ++ b1 ++ b0

/-- Word w of a byte string (R85). -/
def wordOf {n : Nat} (s : Bytes n) (w : Nat) : Word :=
  packWord (byteAt s (4 * w)) (byteAt s (4 * w + 1)) (byteAt s (4 * w + 2)) (byteAt s (4 * w + 3))

/-- s with word w replaced: s[4w + i] <- v[8i+7 : 8i] for i = 0..3 (R85). -/
def setWordOf {n : Nat} (s : Bytes n) (w : Nat) (v : Word) : Bytes n :=
  Vector.ofFn fun i => if i.val / 4 = w then wordByte v (i.val % 4) else s[i]

/-! ### BUF -/

/-- The byte written at offset a, if one was. -/
def memLookup : Memory → Nat → Option Byte
  | [], _ => none
  | (k, b) :: rest, a => if k = a then some b else memLookup rest a

/-- BUF[a] <- b, in the canonical form. -/
def memStore : Memory → Nat → Byte → Memory
  | [], a, b => [(a, b)]
  | (k, v) :: rest, a, b =>
    if a < k then (a, b) :: (k, v) :: rest
    else if a = k then (a, b) :: rest
    else (k, v) :: memStore rest a b

/-- BUF[a + i] <- s[i] for every i. -/
def memStoreAll : Memory → Nat → List Byte → Memory
  | m, _, [] => m
  | m, a, b :: rest => memStoreAll (memStore m a b) (a + 1) rest

/-- The byte BUF[a] holds: what was written there since the last reset, or the free byte of this reset (R48). -/
def bufByte (s : State) (a : Nat) : Byte := (memLookup s.buf a).getD (Config.freeByte s.epoch a)

/-- MemRead(a, n) of R10. -/
def memRead (s : State) (a n : Nat) : List Byte := (List.range n).map fun i => bufByte s (a + i)

/-- MemRead(a, b) as a block of b bytes. -/
def readBlock (s : State) (a b : Nat) : Bytes b := Vector.ofFn fun i => bufByte s (a + i.val)

/-- MemWrite(a, n, bytes) of R10. -/
def memWrite (s : State) (a : Nat) (bytes : List Byte) : State := { s with buf := memStoreAll s.buf a bytes }

/-! ### Key contexts -/

/-- Context c (R40). -/
def State.ctx (s : State) : Ctx → KeyContext
  | .explicit => s.ctx0
  | .session => s.ctx1

/-- s with context c replaced. -/
def State.setCtx (s : State) (c : Ctx) (k : KeyContext) : State :=
  match c with
  | .explicit => { s with ctx0 := k }
  | .session => { s with ctx1 := k }

/-- IV[c] <- iv, all 16 bytes. -/
def setIv (c : Ctx) (iv : Bytes 16) (s : State) : State := s.setCtx c { s.ctx c with iv := iv }

/-- IV[c][0..n) <- iv (42_block_chaining.md R193). -/
def setIvFirst {n : Nat} (c : Ctx) (iv : Bytes n) (s : State) : State := setIv c (replaceFirst iv (s.ctx c).iv) s

/-- K1[c] <- a, K2[c] <- b, SKVALID[c] <- 1 (41_keys_subkeys.md R177). -/
def setSubkeys (c : Ctx) (a b : Bytes 16) (s : State) : State :=
  s.setCtx c { s.ctx c with k1 := a, k2 := b, skvalid := true }

/-- SKVALID <- 0, K1 <- 0^16, K2 <- 0^16: what every key write does (10_state.md R42, R43). -/
def KeyContext.dropSubkeys (k : KeyContext) : KeyContext :=
  { k with skvalid := false, k1 := Bytes.zero 16, k2 := Bytes.zero 16 }

/-! ### The life of a command -/

/-- The result codes (60_exceptions.md R233). -/
inductive ErrCode where
  /-- ERR_NONE. -/
  | none
  /-- ERR_OPCODE. -/
  | opcode
  /-- ERR_NOKEY. -/
  | nokey
  /-- ERR_LENGTH. -/
  | length
  /-- ERR_BOUNDS. -/
  | bounds
  deriving DecidableEq, Repr

/-- The value STATUS.ERR takes (R233). -/
def errValue : ErrCode → BitVec 4
  | .none => 0
  | .opcode => 1
  | .nokey => 2
  | .length => 3
  | .bounds => 4

/-- Acceptance of the command word v (R231). -/
def acceptCommand (v : Word) (s : State) : State :=
  { s with pend := v, busy := true, done := false, err := errValue .none }

/-- The end of a command with a result code: STATUS.ERR <- code, BUSY <- 0, DONE <- 1 (R235, R236). -/
def endCommand (code : ErrCode) (s : State) : State :=
  { s with err := errValue code, busy := false, done := true }

/-- The normal end of a command (R235). -/
def complete (s : State) : State := endCommand .none s

/-- raise Error(code) (R236): the command ends at once, and nothing else changes. -/
def raiseError (code : ErrCode) (s : State) : State := endCommand code s

/-! ### Reset -/

/-- The reset transition (70_reset_and_hazards.md R260, R261): every piece of the block's state takes its reset value,
a command in progress is discarded, and BUF holds new free bytes. The parameters and what lies outside the block (the
events to come, the host's record of its accesses, the count of free reads) stay. -/
def resetBlock (s : State) : State :=
  { State.reset with
    params := s.params, epoch := s.epoch + 1, draws := s.draws, script := s.script, reply := s.reply,
    hostFault := s.hostFault }

end Sys2Proof.Machine
end

