-- ==== Sys2Proof/Machine/Operands.lean ====
section
/-! DEFINITION. Every operand of a command: the window OFF, LEN into BUF, the key context with its block size and
component keys, and the chaining value (30_encoding.md R112 to R116, 41_keys_subkeys.md R170 to R173). -/

namespace Sys2Proof.Machine

/-- a = OFF[15:0] as a natural (40_checksum.md, section 2). -/
def offset (s : State) : Nat := s.off.toNat

/-- n = LEN[15:0] as a natural. -/
def count (s : State) : Nat := s.len.toNat

/-- BUF[a..a+n) lies inside BUF; sums do not wrap (20_memory.md R86). -/
def inBuf (s : State) (a n : Nat) : Bool := decide (a + n ≤ s.params.bufBytes)

/-- The number TYPE stands for (R170). -/
def KeyType.code : KeyType → BitVec 2
  | .des => 0
  | .tdes2 => 1
  | .tdes3 => 2
  | .aes => 3

/-- The algorithm a TYPE value names (R170): every value is legal. -/
def KeyType.ofCode (v : BitVec 2) : KeyType :=
  if v = 0 then .des else if v = 1 then .tdes2 else if v = 2 then .tdes3 else .aes

/-- bs(c): 16 if TYPE[c] = 3, else 8 (R172). -/
def KeyType.blockSize : KeyType → Nat
  | .des => 8
  | .tdes2 => 8
  | .tdes3 => 8
  | .aes => 16

/-- k1 = KEY[0..8) (R171). -/
def key1 (key : Bytes 24) : Bytes 8 := sliceOf key 0 8

/-- k2 = KEY[8..16) (R171). -/
def key2 (key : Bytes 24) : Bytes 8 := sliceOf key 8 8

/-- k3 = KEY[16..24) (R171). -/
def key3 (key : Bytes 24) : Bytes 8 := sliceOf key 16 8

/-- ka = KEY[0..16) (R171). -/
def keyA (key : Bytes 24) : Bytes 16 := sliceOf key 0 16

/-- Cipher(c, op, x) of R173, for a context of type t and key `key`. -/
def cipher (P : Primitives) (t : KeyType) (key : Bytes 24) (op : CipherOp) (x : Bytes t.blockSize) :
    Bytes t.blockSize :=
  match t, op, x with
  | .des, .encipher, x => P.desE (key1 key) x
  | .des, .decipher, x => P.desD (key1 key) x
  | .tdes2, .encipher, x => P.desE (key1 key) (P.desD (key2 key) (P.desE (key1 key) x))
  | .tdes2, .decipher, x => P.desD (key1 key) (P.desE (key2 key) (P.desD (key1 key) x))
  | .tdes3, .encipher, x => P.desE (key3 key) (P.desD (key2 key) (P.desE (key1 key) x))
  | .tdes3, .decipher, x => P.desD (key1 key) (P.desE (key2 key) (P.desD (key3 key) x))
  | .aes, .encipher, x => P.aesE (keyA key) x
  | .aes, .decipher, x => P.aesD (keyA key) x

/-- IV[c][0..b) (42_block_chaining.md R193). -/
def chainIv (k : KeyContext) (b : Nat) : Bytes b := sliceOf k.iv 0 b

end Sys2Proof.Machine
end

