-- ==== Sys2Proof/Machine/Flags.lean ====
section
/-! DEFINITION. Every flag of the block: CZ, the interrupt output, and the words in which software sees the flags
(10_state.md R25, R26, R33, R41). -/

namespace Sys2Proof.Machine

/-- CRCR <- r, STATUS.CZ <- (r = 0): what a successful CRC command writes (40_checksum.md R146 to R149). -/
def setCrc (r : Word) (s : State) : State := { s with crcr := r, cz := decide (r = 0) }

/-- irq = CTRL.IE and STATUS.DONE (R33). -/
def irq (s : State) : Bool := s.ie && s.done

/-- The bit of CTRL.GEN (R25). -/
def genBit : Generation → Bool
  | .legacy => false
  | .new => true

/-- What a bit written to CTRL.GEN selects (R25). -/
def genOfBit (b : Bool) : Generation := if b then .new else .legacy

/-- The word read at CTRL: IE in bit 0, GEN in bit 1 (R25). -/
def ctrlWord (s : State) : Word :=
  0#30 ++ BitVec.ofBool (genBit s.gen) ++ BitVec.ofBool s.ie

/-- The word read at STATUS: BUSY, DONE, CZ, OVR in bits 0 to 3, ERR in bits 7:4 (R26). -/
def statusWord (s : State) : Word :=
  0#24 ++ s.err ++ BitVec.ofBool s.ovr ++ BitVec.ofBool s.cz ++ BitVec.ofBool s.done ++ BitVec.ofBool s.busy

/-- The word read at KEYCFG: TYPE in bits 1:0, KVALID in bit 8, SKVALID in bit 9 (R41). -/
def keycfgWord (k : KeyContext) : Word :=
  0#22 ++ BitVec.ofBool k.skvalid ++ BitVec.ofBool k.kvalid ++ 0#6 ++ k.keyType.code

/-- A host write of v to STATUS, busy or not: DONE and OVR are cleared by writing 1 (R27). -/
def clearFlags (v : Word) (s : State) : State :=
  { s with done := s.done && !v.getLsbD 1, ovr := s.ovr && !v.getLsbD 3 }

/-- A host write that was ignored because the block was busy sets STATUS.OVR (R34). -/
def setOverrun (s : State) : State := { s with ovr := true }

end Sys2Proof.Machine
end

