-- ==== Sys2Proof/Machine/Bus.lean ====
section
/-! DEFINITION. The register aperture (10_state.md R22 to R46, 20_memory.md R80 to R88): which register an address
names, what each reads as and what a write to each does, and one bus access. -/

namespace Sys2Proof.Machine

/-- What occupies one word of the aperture (R22, 20_memory.md R83). -/
inductive Reg where
  | id
  | ctrl
  | status
  | cmd
  | off
  | len
  | crcr
  | bufsize
  | keycfg (c : Ctx)
  | key (c : Ctx) (w : Fin 6)
  | iv (c : Ctx) (w : Fin 4)
  | k1 (c : Ctx) (w : Fin 4)
  | k2 (c : Ctx) (w : Fin 4)
  /-- BUF word j, in the BUF window (R84). -/
  | buf (j : Nat)
  /-- No register and no BUF word. -/
  | unmapped
  deriving DecidableEq, Repr

/-- The register at byte `o` of a key context's 0x80 bytes (R22, R83). -/
def ctxRegAt (c : Ctx) (o : Nat) : Reg :=
  if o / 4 = 0 then .keycfg c
  else if h : 8 ≤ o / 4 ∧ o / 4 < 14 then .key c ⟨o / 4 - 8, by omega⟩
  else if h : 16 ≤ o / 4 ∧ o / 4 < 20 then .iv c ⟨o / 4 - 16, by omega⟩
  else if h : 24 ≤ o / 4 ∧ o / 4 < 28 then .k1 c ⟨o / 4 - 24, by omega⟩
  else if h : 28 ≤ o / 4 ∧ o / 4 < 32 then .k2 c ⟨o / 4 - 28, by omega⟩
  else .unmapped

/-- The global register at byte o < 0x20 (R22). -/
def globalRegAt (o : Nat) : Reg :=
  match o / 4 with
  | 0 => .id
  | 1 => .ctrl
  | 2 => .status
  | 3 => .cmd
  | 4 => .off
  | 5 => .len
  | 6 => .crcr
  | 7 => .bufsize
  | _ => .unmapped

/-- The register at an aligned aperture address (R22, R83); BUF word j for j < BUF_BYTES / 4 (R84). -/
def regAt (p : Params) (addr : Half) : Reg :=
  let o := addr.toNat
  if o < 0x20 then globalRegAt o
  else if 0x100 ≤ o ∧ o < 0x180 then ctxRegAt .explicit (o - 0x100)
  else if 0x200 ≤ o ∧ o < 0x280 then ctxRegAt .session (o - 0x200)
  else if 0x8000 ≤ o ∧ (o - 0x8000) / 4 < p.bufBytes / 4 then .buf ((o - 0x8000) / 4)
  else .unmapped

/-- The offset of a context's registers: 0x100 + 0x100*c (R22). -/
def ctxBase (c : Ctx) : Nat := 0x100 + 0x100 * c.code

/-- The offset column of R22, as a natural; an unmapped word is given the offset 0x20. -/
def Reg.offset : Reg → Nat
  | .id => 0x000
  | .ctrl => 0x004
  | .status => 0x008
  | .cmd => 0x00C
  | .off => 0x010
  | .len => 0x014
  | .crcr => 0x018
  | .bufsize => 0x01C
  | .keycfg c => ctxBase c
  | .key c w => ctxBase c + 0x20 + 4 * w.val
  | .iv c w => ctxBase c + 0x40 + 4 * w.val
  | .k1 c w => ctxBase c + 0x60 + 4 * w.val
  | .k2 c w => ctxBase c + 0x70 + 4 * w.val
  | .buf j => 0x8000 + 4 * j
  | .unmapped => 0x020

/-- The constant of ID (R24). -/
def idWord : Word := 0x45504231#32

/-- Word j of the BUF window (20_memory.md R84). -/
def bufWord (s : State) (j : Nat) : Word :=
  packWord (bufByte s (4 * j)) (bufByte s (4 * j + 1)) (bufByte s (4 * j + 2)) (bufByte s (4 * j + 3))

/-- What a register reads as while its value is defined: the constants (R24, R32), the fields (R25 to R31, R41), the
byte strings (R44, R45, R84), and 0 for a write-only register (R28, R43) and an unmapped word (R23). -/
def readReg (s : State) : Reg → Word
  | .id => idWord
  | .ctrl => ctrlWord s
  | .status => statusWord s
  | .cmd => 0
  | .off => s.off.setWidth 32
  | .len => s.len.setWidth 32
  | .crcr => s.crcr
  | .bufsize => BitVec.ofNat 32 s.params.bufBytes
  | .keycfg c => keycfgWord (s.ctx c)
  | .key _ _ => 0
  | .iv c w => wordOf (s.ctx c).iv w.val
  | .k1 c w => wordOf (s.ctx c).k1 w.val
  | .k2 c w => wordOf (s.ctx c).k2 w.val
  | .buf j => bufWord s j
  | .unmapped => 0

/-- The registers whose value a read while busy leaves unspecified (R35). -/
def Reg.hiddenWhileBusy : Reg → Bool
  | .id => false
  | .ctrl => false
  | .status => false
  | .cmd => false
  | .off => false
  | .len => false
  | .crcr => true
  | .bufsize => false
  | .keycfg _ => true
  | .key _ _ => false
  | .iv _ _ => true
  | .k1 _ _ => true
  | .k2 _ _ => true
  | .buf _ => true
  | .unmapped => false

/-- A write of v to KEYCFG[c], not busy (R42): the key is committed and its subkeys are dropped. -/
def writeKeycfg (c : Ctx) (v : Word) (s : State) : State :=
  s.setCtx c { (s.ctx c).dropSubkeys with keyType := KeyType.ofCode (v.setWidth 2), kvalid := true }

/-- A write of v to KEYw[c], not busy (R43): the key is no longer committed and its subkeys are dropped. -/
def writeKey (c : Ctx) (w : Fin 6) (v : Word) (s : State) : State :=
  s.setCtx c { (s.ctx c).dropSubkeys with key := setWordOf (s.ctx c).key w.val v, kvalid := false }

/-- A write of v to a register while BUSY = 0: R25, R27, R231, R29, R30, R42, R43, R44, R84; read-only registers and
unmapped words ignore it (R23). -/
def writeReg (v : Word) (s : State) : Reg → State
  | .id => s
  | .ctrl => { s with ie := v.getLsbD 0, gen := genOfBit (v.getLsbD 1) }
  | .status => clearFlags v s
  | .cmd => acceptCommand v s
  | .off => { s with off := v.setWidth 16 }
  | .len => { s with len := v.setWidth 16 }
  | .crcr => s
  | .bufsize => s
  | .keycfg c => writeKeycfg c v s
  | .key c w => writeKey c w v s
  | .iv c w => setIv c (setWordOf (s.ctx c).iv w.val v) s
  | .k1 _ _ => s
  | .k2 _ _ => s
  | .buf j => memWrite s (4 * j) (leBytes 4 v)
  | .unmapped => s

/-- addr[1:0] = 0 (20_memory.md R82). -/
def aligned (addr : Half) : Bool := decide (addr.toNat % 4 = 0)

/-- The block answers an access (R81). -/
def answer (resp : Response) (rdata : Option Word) (s : State) : State := { s with reply := some ⟨resp, rdata⟩ }

/-- A misaligned access (R82): the response ERROR, nothing of the block changes, and the model reports the host's
fault (log entry 6). A Read returns rdata 0. -/
def misaligned (rdata : Option Word) (s : State) : State :=
  answer .error rdata { s with hostFault := true }

/-- A bus Read (R81). While busy, a read of what the engine may change returns a free value (R35, log entry 4). -/
def busRead (addr : Half) (s : State) : State :=
  if aligned addr then
    if s.busy && (regAt s.params addr).hiddenWhileBusy then
      answer .ok (some (Config.freeRead s.draws)) { s with draws := s.draws + 1 }
    else answer .ok (some (readReg s (regAt s.params addr))) s
  else misaligned (some 0) s

/-- What an aligned bus Write does to the block: a write to STATUS acts busy or not (R27); any other write while busy
is ignored and sets OVR (R34). -/
def applyWrite (r : Reg) (v : Word) (s : State) : State :=
  if s.busy then
    if r = .status then clearFlags v s else setOverrun s
  else writeReg v s r

/-- A bus Write (R81). -/
def busWrite (addr : Half) (v : Word) (s : State) : State :=
  if aligned addr then answer .ok none (applyWrite (regAt s.params addr) v s)
  else misaligned none s

/-- One host access (R81). -/
def hostAccess (a : Access) (s : State) : State :=
  match a with
  | .read addr => busRead addr s
  | .write addr v => busWrite addr v s

end Sys2Proof.Machine
end

