-- ==== Sys2Proof/Machine/Chaining.lean ====
section
/-! DEFINITION. The Block-Chaining Engine: the chaining step (42_block_chaining.md R190 to R192) and the commands CBC1
(R194) and CBCN (R195). -/

namespace Sys2Proof.Machine

/-- CBCStep(c, dir, op, x, iv) of R190: the output block and the new chaining value. -/
def cbcStep (P : Primitives) (t : KeyType) (key : Bytes 24) (dir : Dir) (op : CipherOp)
    (x iv : Bytes t.blockSize) : Bytes t.blockSize × Bytes t.blockSize :=
  match dir with
  | .send =>
    let y := cipher P t key op (xorBytes x iv)
    (y, y)
  | .receive => (xorBytes (cipher P t key op x) iv, x)

/-- The pseudocode of CBC1 (R194). -/
def cbc1Command (P : Primitives) (c : Ctx) (dir : Dir) (op : CipherOp) (s : State) : State :=
  let k := s.ctx c
  let b := k.keyType.blockSize
  if k.kvalid then
    if inBuf s (offset s) b then
      let r := cbcStep P k.keyType k.key dir op (readBlock s (offset s) b) (chainIv k b)
      complete (setIvFirst c r.2 (memWrite s (offset s) r.1.toList))
    else raiseError .bounds s
  else raiseError .nokey s

/-- The loop of R195: `blocks` chaining steps in place from offset a on, with the chaining value they end with. -/
def cbcLoop (P : Primitives) (t : KeyType) (key : Bytes 24) (dir : Dir) (op : CipherOp) :
    (blocks a : Nat) → (iv : Bytes t.blockSize) → State → State × Bytes t.blockSize
  | 0, _, iv, s => (s, iv)
  | blocks + 1, a, iv, s =>
    let r := cbcStep P t key dir op (readBlock s a t.blockSize) iv
    cbcLoop P t key dir op blocks (a + t.blockSize) r.2 (memWrite s a r.1.toList)

/-- The legacy IV reset (R196): on context 1 with CTRL.GEN = 0, all 16 bytes of IV[1] become 0. -/
def legacyReset (c : Ctx) (s : State) : State :=
  match c, s.gen with
  | .session, .legacy => setIv .session (Bytes.zero 16) s
  | .session, .new => s
  | .explicit, _ => s

/-- The pseudocode of CBCN (R195), its checks in the order of 60_exceptions.md R234. -/
def cbcnCommand (P : Primitives) (c : Ctx) (dir : Dir) (op : CipherOp) (s : State) : State :=
  let k := s.ctx c
  let b := k.keyType.blockSize
  if k.kvalid then
    if count s % b = 0 then
      if inBuf s (offset s) (count s) then
        let s0 := legacyReset c s
        let r := cbcLoop P k.keyType k.key dir op (count s / b) (offset s) (chainIv (s0.ctx c) b) s0
        complete (setIvFirst c r.2 r.1)
      else raiseError .bounds s
    else raiseError .length s
  else raiseError .nokey s

/-- CBC1 c, dir, op (R194). -/
def execCbc1 (c : Ctx) (dir : Dir) (op : CipherOp) (s : State) : Host.Outcome State Fault Refusal :=
  .next (cbc1Command Config.primitives c dir op s)

/-- CBCN c, dir, op (R195). -/
def execCbcn (c : Ctx) (dir : Dir) (op : CipherOp) (s : State) : Host.Outcome State Fault Refusal :=
  .next (cbcnCommand Config.primitives c dir op s)

end Sys2Proof.Machine
end

