-- ==== Sys2Proof/Machine/Checksum.lean ====
section
/-! DEFINITION. The Checksum Engine: the CRC functions (40_checksum.md R140 to R145) and the commands CRC16, CRC16A,
CRC32 and CRC32A (R146 to R149). -/

namespace Sys2Proof.Machine

/-- upd16(crc, b): the ISO/IEC 14443-3 Annex B recurrence (R140), every ch eight bits wide. -/
def upd16 (crc : BitVec 16) (b : Byte) : BitVec 16 :=
  let ch : Byte := b ^^^ crc.setWidth 8
  let ch : Byte := ch ^^^ (ch <<< 4)
  (crc >>> 8) ^^^ (ch.setWidth 16 <<< 8) ^^^ (ch.setWidth 16 <<< 3) ^^^ (ch.setWidth 16 >>> 4)

/-- One step of a reflected CRC with polynomial p: shift right, and XOR p in if a 1 fell out (R141, R143). -/
def lfsrStep {w : Nat} (p c : BitVec w) : BitVec w := if c.getLsbD 0 then (c >>> 1) ^^^ p else c >>> 1

/-- n such steps. -/
def lfsrSteps {w : Nat} (p : BitVec w) : Nat → BitVec w → BitVec w
  | 0, c => c
  | n + 1, c => lfsrSteps p n (lfsrStep p c)

/-- The bit-serial form of upd16 (R141), polynomial 0x8408. -/
def upd16Serial (crc : BitVec 16) (b : Byte) : BitVec 16 := lfsrSteps 0x8408#16 8 (crc ^^^ b.setWidth 16)

/-- crc16(s) (R142): seed 0x6363, no final step. -/
def crc16 (s : List Byte) : BitVec 16 := s.foldl upd16 0x6363#16

/-- upd32(crc, b) (R143), polynomial 0xEDB88320. -/
def upd32 (crc : Word) (b : Byte) : Word := lfsrSteps 0xEDB88320#32 8 (crc ^^^ b.setWidth 32)

/-- crc32(s) (R144): seed 0xFFFFFFFF, no final XOR (90_conflicts.md C3). -/
def crc32 (s : List Byte) : Word := s.foldl upd32 0xFFFFFFFF#32

/-- zext_32(crc16(s)), the form in which CRCR holds it (10_state.md R31). -/
def crc16Word (s : List Byte) : Word := (crc16 s).setWidth 32

/-- The pseudocode the four CRC commands share (R146 to R149): check the bounds of the input and of the `k` appended
bytes (0 for the plain forms), compute the CRC, append it least significant byte first (R145), set CRCR and CZ. -/
def checksumCommand (k : Nat) (crc : List Byte → Word) (s : State) : State :=
  if inBuf s (offset s) (count s + k) then
    let r := crc (memRead s (offset s) (count s))
    complete (setCrc r (memWrite s (offset s + count s) (leBytes k r)))
  else raiseError .bounds s

/-- CRC16 (R146). -/
def execCrc16 (s : State) : Host.Outcome State Fault Refusal := .next (checksumCommand 0 crc16Word s)

/-- CRC16A (R147). -/
def execCrc16a (s : State) : Host.Outcome State Fault Refusal := .next (checksumCommand 2 crc16Word s)

/-- CRC32 (R148). -/
def execCrc32 (s : State) : Host.Outcome State Fault Refusal := .next (checksumCommand 0 crc32 s)

/-- CRC32A (R149). -/
def execCrc32a (s : State) : Host.Outcome State Fault Refusal := .next (checksumCommand 4 crc32 s)

end Sys2Proof.Machine
end

