-- ==== Sys2Proof/Machine/Subkeys.lean ====
section
/-! DEFINITION. CMAC subkey derivation: the doubling of a block (41_keys_subkeys.md R176) and the command DERIVE
(R177). -/

namespace Sys2Proof.Machine

/-- Rb: 0x1B for 8-byte blocks, 0x87 for 16-byte blocks (R176). -/
def subkeyRb (b : Nat) : Nat := if b = 8 then 0x1B else 0x87

/-- dbl_b(x) (R176). -/
def dbl {b : Nat} (x : Bytes b) : Bytes b :=
  let v := beNat x
  let w := (v <<< 1) % 2 ^ (8 * b)
  beBytes b (if v.testBit (8 * b - 1) then w ^^^ subkeyRb b else w)

/-- L of R177: the encryption of an all-zero block under the key, always with Encipher. -/
def subkeyL (P : Primitives) (t : KeyType) (key : Bytes 24) : Bytes t.blockSize :=
  cipher P t key .encipher (Bytes.zero t.blockSize)

/-- s1 ‖ 0^(16 - b) of R177, the value of K1. -/
def subkey1 (P : Primitives) (t : KeyType) (key : Bytes 24) : Bytes 16 := padZero 16 (dbl (subkeyL P t key))

/-- s2 ‖ 0^(16 - b) of R177, the value of K2. -/
def subkey2 (P : Primitives) (t : KeyType) (key : Bytes 24) : Bytes 16 := padZero 16 (dbl (dbl (subkeyL P t key)))

/-- The pseudocode of DERIVE on context c (R177). -/
def deriveCommand (P : Primitives) (c : Ctx) (s : State) : State :=
  if (s.ctx c).kvalid then
    complete
      (setSubkeys c (subkey1 P (s.ctx c).keyType (s.ctx c).key) (subkey2 P (s.ctx c).keyType (s.ctx c).key) s)
  else raiseError .nokey s

/-- DERIVE c (R177). -/
def execDerive (c : Ctx) (s : State) : Host.Outcome State Fault Refusal :=
  .next (deriveCommand Config.primitives c s)

end Sys2Proof.Machine
end

