-- ==== Sys2Proof/Machine/Dispatch.lean ====
section
/-! DEFINITION. What each command does, one arm per constructor of Instr: the engine's completion of that command
(60_exceptions.md R235). -/

namespace Sys2Proof.Machine

def exec (i : Instr) (s : State) : Host.Outcome State Fault Refusal :=
  match i with
  | .crc16 => Sys2Proof.Machine.execCrc16 s
  | .crc16a => Sys2Proof.Machine.execCrc16a s
  | .crc32 => Sys2Proof.Machine.execCrc32 s
  | .crc32a => Sys2Proof.Machine.execCrc32a s
  | .cbc1 ctx dir op => Sys2Proof.Machine.execCbc1 ctx dir op s
  | .cbcn ctx dir op => Sys2Proof.Machine.execCbcn ctx dir op s
  | .derive ctx => Sys2Proof.Machine.execDerive ctx s

end Sys2Proof.Machine
end

