-- ==== Sys2Proof/Machine/Engine.lean ====
section
/-! DEFINITION. The engine's step (60_exceptions.md R235) and the order of events (20_memory.md R89): the pieces that
Machine/Step.lean puts together. -/

namespace Sys2Proof.Machine

/-- complete() of R235: the command in PEND, or ERR_OPCODE for a reserved word (30_encoding.md R115). -/
def engineStep (s : State) : Host.Outcome State Fault Refusal :=
  match decode s.pend with
  | .ok i => exec i s
  | .error _ => .next (raiseError .opcode s)

/-- The engine's turn: it has a step exactly while STATUS.BUSY = 1 (R235); otherwise nothing happens. -/
def engineTurn (s : State) : Host.Outcome State Fault Refusal := if s.busy then engineStep s else .next s

/-- One event of R89. -/
def takeEvent (e : Event) (s : State) : Host.Outcome State Fault Refusal :=
  match e with
  | .host a => .next (hostAccess a s)
  | .engine => engineTurn s
  | .reset => .next (resetBlock s)

/-- The next event of the script happens. When the script is over, the engine still takes its step (the weak fairness
of R235), and an idle block stays as it is (70_reset_and_hazards.md R270). -/
def advance (s : State) : Host.Outcome State Fault Refusal :=
  match s.script with
  | [] => engineTurn s
  | e :: rest => takeEvent e { s with script := rest }

/-- The script in which the engine's turn comes next. -/
def engineNext (script : List Event) : List Event :=
  match script with
  | [] => []
  | e :: rest => .engine :: e :: rest

/-- The command word v accepted (R231) and the engine's turn next. -/
def issue (v : Word) (s : State) : State := { acceptCommand v s with script := engineNext s.script }

end Sys2Proof.Machine
end

