-- ==== Sys2Proof/Machine/Step.lean ====
section
/-! DEFINITION. The step of the machine, and how a command word comes to be the next one it runs. -/

namespace Sys2Proof.Machine

/-- One event of the block's total order (20_memory.md R89): a host access, the engine's step, or a reset. -/
def step (s : State) : Host.Outcome State Fault Refusal := advance s

/-- The command word w is accepted, as a write to CMD accepts it (60_exceptions.md R231), and the engine's turn comes
next, so that the very next step runs it. The block has no program counter and fetches from PEND (10_state.md R21, R46;
log entry 10). -/
def State.withFetchWord (s : State) (nbits w : Nat) : State := issue (BitVec.ofNat 32 (w % 2 ^ nbits)) s

end Sys2Proof.Machine
end

