-- ==== Sys2Proof/Machine/HostProgram.lean ====
section
/-! DEFINITION. The host pseudo-instructions of 30_encoding.md R120, each as the events it expands to. -/

namespace Sys2Proof.Machine

/-- WR reg, v. -/
def hostWr (r : Reg) (v : Word) : List Event := [.host (.write (BitVec.ofNat 16 r.offset) v)]

/-- RD reg. -/
def hostRd (r : Reg) : List Event := [.host (.read (BitVec.ofNat 16 r.offset))]

/-- A command line: WR CMD with the word of R118. -/
def hostIssue (i : Instr) : List Event := hostWr .cmd (encode i)

/-- WAIT, as it runs when the engine completes after `polls` reads of STATUS: those reads see BUSY = 1, and the read
after the completion sees BUSY = 0. How many there are is unspecified (70_reset_and_hazards.md R269): a statement holds
for every `polls`. -/
def hostWait (polls : Nat) : List Event :=
  (List.replicate polls (hostRd .status)).flatten ++ .engine :: hostRd .status

/-- RUN command. -/
def hostRun (polls : Nat) (i : Instr) : List Event := hostIssue i ++ hostWait polls

/-- Bytes padded with zero bytes to n (R120). -/
def padTo (n : Nat) (bytes : List Byte) : Bytes n := Vector.ofFn fun i => bytes.getD i.val 0

/-- le(bytes[4w..4w+4)): word w of a list of bytes. -/
def wordOfList (bytes : List Byte) (w : Nat) : Word :=
  packWord (bytes.getD (4 * w) 0) (bytes.getD (4 * w + 1) 0) (bytes.getD (4 * w + 2) 0) (bytes.getD (4 * w + 3) 0)

/-- LOADKEY ctx, type, bytes: the six KEY words, then KEYCFG. -/
def hostLoadKey (c : Ctx) (t : KeyType) (bytes : List Byte) : List Event :=
  (List.ofFn fun w : Fin 6 => hostWr (.key c w) (wordOf (padTo 24 bytes) w.val)).flatten ++
    hostWr (.keycfg c) (t.code.setWidth 32)

/-- WRIV ctx, bytes: the four IV words. -/
def hostWrIv (c : Ctx) (bytes : List Byte) : List Event :=
  (List.ofFn fun w : Fin 4 => hostWr (.iv c w) (wordOf (padTo 16 bytes) w.val)).flatten

/-- WRBUF off, bytes: off and the number of bytes are multiples of 4. -/
def hostWrBuf (off : Nat) (bytes : List Byte) : List Event :=
  ((List.range (bytes.length / 4)).map fun j => hostWr (.buf (off / 4 + j)) (wordOfList bytes j)).flatten

/-- RDBUF off, n: off and n are multiples of 4. -/
def hostRdBuf (off n : Nat) : List Event :=
  ((List.range (n / 4)).map fun j => hostRd (.buf (off / 4 + j))).flatten

end Sys2Proof.Machine
end

