-- ==== Sys2Proof/Safety.lean ====
section
/-! DEFINITION. The terms in which statements speak of good states and runs: the invariants of the block, the end of a
run, the busy hazard, and the part of a state that is the block's own. -/

namespace Sys2Proof.Machine

/-- A key context keeps the rule of 10_state.md R47 and R45: with SKVALID = 1 a key is committed and K1, K2 are the
subkeys 41_keys_subkeys.md R177 computes from TYPE and KEY; with SKVALID = 0 they are 0. -/
structure KeyContext.Consistent (P : Primitives) (k : KeyContext) : Prop where
  committed : k.skvalid = true → k.kvalid = true
  k1_derived : k.skvalid = true → k.k1 = subkey1 P k.keyType k.key
  k2_derived : k.skvalid = true → k.k2 = subkey2 P k.keyType k.key
  k1_cleared : k.skvalid = false → k.k1 = Bytes.zero 16
  k2_cleared : k.skvalid = false → k.k2 = Bytes.zero 16

/-- Both key contexts are consistent (R47). -/
def State.SubkeysValid (s : State) : Prop := ∀ c, (s.ctx c).Consistent Config.primitives

/-- What every state of a run meets beside R47. -/
structure State.Sound (s : State) : Prop where
  /-- BUF_BYTES is legal (00_scope.md R5). -/
  params_ok : s.params.wellFormed = true
  /-- BUF is in its canonical form. -/
  buf_wf : s.buf.wf
  /-- BUF holds no byte at or beyond BUF_BYTES (20_memory.md R86). -/
  buf_in_range : ∀ c ∈ s.buf, c.1 < s.params.bufBytes
  /-- STATUS.ERR is never 5 to 15 (60_exceptions.md R233, I8). -/
  err_legal : s.err.toNat ≤ 4
  /-- A command in progress has cleared DONE (R231, R237). -/
  busy_not_done : s.busy = true → s.done = false
  /-- A command in progress has cleared ERR (R231, R233). -/
  busy_no_error : s.busy = true → s.err = 0

/-- The host has issued its last access and no engine step is pending (70_reset_and_hazards.md R270). -/
def State.final (s : State) : Bool := s.script.isEmpty && !s.busy

/-- No write was lost to the busy hazard (R263) and no access was misaligned (20_memory.md R82): the premise of a claim
about what a host program computes. -/
def State.cleanRun (s : State) : Bool := !s.ovr && !s.hostFault

/-- Every byte of BUF[a..a+n) has been written since reset (70_reset_and_hazards.md R262 (5)). -/
def State.written (s : State) (a n : Nat) : Prop := ∀ i, i < n → (memLookup s.buf (a + i)).isSome = true

/-- The block's own state: the record of bus answers, the count of free reads, the report on the host and the events to
come are left out. Two states with the same `block` are the same block. -/
def State.block (s : State) : State := { s with script := [], reply := none, draws := 0, hostFault := false }

/-- The state with the key material of both contexts blanked: what a host may know (10_state.md R43). -/
def State.eraseKeys (s : State) : State :=
  { s with ctx0 := { s.ctx0 with key := Bytes.zero 24 }, ctx1 := { s.ctx1 with key := Bytes.zero 24 } }

/-- Byte o of the aperture lies in no register and in no BUF word: the unmapped ranges of 20_memory.md R83, and the
words of a key context's range that no register of 10_state.md R22 occupies (R23, log entry 14). -/
abbrev unoccupied (bufBytes o : Nat) : Prop :=
  (0x020 ≤ o ∧ o < 0x100) ∨ (0x104 ≤ o ∧ o < 0x120) ∨ (0x138 ≤ o ∧ o < 0x140) ∨ (0x150 ≤ o ∧ o < 0x160) ∨
    (0x180 ≤ o ∧ o < 0x200) ∨ (0x204 ≤ o ∧ o < 0x220) ∨ (0x238 ≤ o ∧ o < 0x240) ∨ (0x250 ≤ o ∧ o < 0x260) ∨
      (0x280 ≤ o ∧ o < 0x8000) ∨ 0x8000 + bufBytes ≤ o

/-- The key context a command uses, if it uses one (30_encoding.md R112). -/
def Instr.usesContext : Instr → Option Ctx
  | .crc16 => none
  | .crc16a => none
  | .crc32 => none
  | .crc32a => none
  | .cbc1 c _ _ => some c
  | .cbcn c _ _ => some c
  | .derive c => some c

/-- How many bytes of BUF a command reads from OFF on (40_checksum.md R146 to R149, 42_block_chaining.md R194, R195). -/
def inputLength (i : Instr) (s : State) : Nat :=
  match i with
  | .crc16 => s.len.toNat
  | .crc16a => s.len.toNat
  | .crc32 => s.len.toNat
  | .crc32a => s.len.toNat
  | .cbc1 c _ _ => (s.ctx c).keyType.blockSize
  | .cbcn _ _ _ => s.len.toNat
  | .derive _ => 0

/-- The first index of BUF past every byte a command would read or write (60_exceptions.md R233, ERR_BOUNDS). DERIVE
touches no byte of BUF. -/
def reach (i : Instr) (s : State) : Nat :=
  match i with
  | .crc16 => s.off.toNat + s.len.toNat
  | .crc16a => s.off.toNat + s.len.toNat + 2
  | .crc32 => s.off.toNat + s.len.toNat
  | .crc32a => s.off.toNat + s.len.toNat + 4
  | .cbc1 c _ _ => s.off.toNat + (s.ctx c).keyType.blockSize
  | .cbcn _ _ _ => s.off.toNat + s.len.toNat
  | .derive _ => 0

/-- The command uses a context with no committed key (R233, ERR_NOKEY). -/
def lacksKey (i : Instr) (s : State) : Bool :=
  match Instr.usesContext i with
  | none => false
  | some c => !(s.ctx c).kvalid

/-- LEN is not a multiple of the block size a CBCN needs (R233, ERR_LENGTH). -/
def badLength (i : Instr) (s : State) : Bool :=
  match i with
  | .crc16 => false
  | .crc16a => false
  | .crc32 => false
  | .crc32a => false
  | .cbc1 _ _ _ => false
  | .cbcn c _ _ => decide (s.len.toNat % (s.ctx c).keyType.blockSize ≠ 0)
  | .derive _ => false

/-- The operation that undoes another under the inversion hypothesis (42_block_chaining.md R198, R199). -/
def inverseOp : CipherOp → CipherOp
  | .encipher => .decipher
  | .decipher => .encipher

/-- The chaining value CBCN starts from: zero under the legacy reset, else the context's IV (R195, R196). -/
def startIv (c : Ctx) (s : State) : Bytes (s.ctx c).keyType.blockSize :=
  if c = .session ∧ s.gen = .legacy then Bytes.zero _ else chainIv (s.ctx c) (s.ctx c).keyType.blockSize

/-- `blocks` CBC1 commands at a, a + b, ..., software moving OFF on between them (R195, corner cases). -/
def cbc1Chain (P : Primitives) (c : Ctx) (d : Dir) (o : CipherOp) : (blocks a : Nat) → State → State
  | 0, _, s => s
  | blocks + 1, a, s =>
    cbc1Chain P c d o blocks (a + (s.ctx c).keyType.blockSize)
      (cbc1Command P c d o { s with off := BitVec.ofNat 16 a })

end Sys2Proof.Machine
end

