-- ==== Sys2Proof/Certificates/Slice0/Obligations.lean ====
section
/-! DEFINITION. The statements for the provers. Each says what a rule of spec/ says of the machine. A state update written
out as a record says the frame too: every field it does not name is unchanged. -/

open Sys2Proof Sys2Proof.Machine

/-! ### The command word (30_encoding.md) -/

/-- R118: the legal words, written out, decode to their commands. -/
def Obligations.LegalWordsDecodeToTheirCommands : Prop :=
  decode 0x00000001#32 = .ok .crc16 ∧ decode 0x00000002#32 = .ok .crc16a ∧ decode 0x00000003#32 = .ok .crc32 ∧
    decode 0x00000004#32 = .ok .crc32a ∧ decode 0x00000005#32 = .ok (.cbc1 .explicit .send .encipher) ∧
    decode 0x00000015#32 = .ok (.cbc1 .session .send .encipher) ∧
    decode 0x00000025#32 = .ok (.cbc1 .explicit .receive .encipher) ∧
    decode 0x00000045#32 = .ok (.cbc1 .explicit .send .decipher) ∧
    decode 0x00000056#32 = .ok (.cbcn .session .send .decipher) ∧
    decode 0x00000076#32 = .ok (.cbcn .session .receive .decipher) ∧
    decode 0x00000007#32 = .ok (.derive .explicit) ∧ decode 0x00000017#32 = .ok (.derive .session)

/-- R117, R118: decode and encode agree in both directions. -/
def Obligations.DecodeAndEncodeAgree : Prop :=
  (∀ i : Instr, i.wellFormed = true → decode (encode i) = .ok i) ∧
    ∀ (v : Word) (i : Instr), decode v = .ok i → i.wellFormed = true ∧ encode i = v

/-- R115, R117: the words the decoder rejects are exactly the reserved words, each under the name of its case. -/
def Obligations.DecoderRejectsExactlyReservedWords : Prop :=
  ∀ v : Word,
    ((∃ e, decode v = .error e) ↔ v.reserved = true) ∧
      (decode v = .error .highBits ↔ v.highBitsSet = true) ∧
      (decode v = .error .opcode ↔ v.highBitsSet = false ∧ v.badOpcode = true) ∧
      (decode v = .error .crcFields ↔ v.highBitsSet = false ∧ v.badCrcFields = true) ∧
      (decode v = .error .deriveFields ↔ v.highBitsSet = false ∧ v.badDeriveFields = true)

/-- spec/opcode_table.json: a word that decodes matches its command's row and no other; a reserved word matches none. -/
def Obligations.OpcodeTableMatchesDecoder : Prop :=
  ∀ v : Word,
    (opcodeTable.filter fun r => r.matches v).map OpcodeRow.mnemonic =
      match decode v with
      | .ok i => [i.mnemonic]
      | .error _ => []

/-- R115: a reserved word written to CMD is accepted, completes with ERR_OPCODE and changes nothing else. -/
def Obligations.ReservedWordIsAcceptedAndFails : Prop :=
  ∀ (v : Word) (s : State) (rest : List Event),
    v.highBitsSet = true ∨ v.badOpcode = true ∨ v.badCrcFields = true ∨ v.badDeriveFields = true →
      s.busy = false → s.script = .host (.write 0x00C v) :: .engine :: rest →
        step s = .next { s with
            pend := v, busy := true, done := false, err := 0, reply := some ⟨.ok, none⟩, script := .engine :: rest } ∧
          Host.Core.run core 2 s = .next { s with
            pend := v, done := true, err := 1, reply := some ⟨.ok, none⟩, script := rest }

/-! ### Steps -/

/-- R235: while a command is in progress, the engine's step is `exec` of the command decoded from PEND, around which the
step only drops the engine's turn from the script. That the engine takes its step when the script is over is the model's
own choice (log entry 5). -/
def Obligations.StepRunsTheDecodedCommand : Prop :=
  ∀ (s : State) (i : Instr), s.busy = true → decode s.pend = .ok i → i.wellFormed = true →
    (s.script = [] → step s = exec i s) ∧
      ∀ rest, s.script = .engine :: rest → step s = exec i { s with script := rest }

/-- The model's own choice (log entry 10): a word placed by `withFetchWord` is the very next command to run. -/
def Obligations.PlacedWordRunsNext : Prop :=
  ∀ (s : State) (nbits w : Nat) (i : Instr), decodeTableWord nbits w = some i →
    step (s.withFetchWord nbits w) = exec i (acceptCommand (BitVec.ofNat 32 (w % 2 ^ nbits)) s)

/-- The model's form of the total order of events (log entry 5): the events of the script happen one a step, in order, and
an idle engine has no step. -/
def Obligations.EventsHappenInScriptOrder : Prop :=
  ∀ (s : State) (rest : List Event),
    (∀ a, s.script = .host a :: rest → step s = .next (hostAccess a { s with script := rest })) ∧
      (s.script = .reset :: rest → step s = .next (resetBlock { s with script := rest })) ∧
      (s.busy = false → s.script = .engine :: rest → step s = .next { s with script := rest }) ∧
      (s.busy = false → s.script = [] → step s = .next s)

/-- The model's form of weak fairness (log entry 5): whatever the host does, every run comes to an end: after one step for each event of the script and one
more, the block is idle, and no step on the way stops the machine. -/
def Obligations.EveryRunReachesAFinalState : Prop :=
  ∀ s : State, ∃ t, Host.Core.run core (s.script.length + 1) s = .next t ∧ t.final = true

/-! ### Checksums (40_checksum.md) -/

/-- The spec's own inference (R141, marked as derived from R140): the nibble-folding recurrence equals eight steps of the
reflected CRC with polynomial 0x8408. -/
def Obligations.Crc16UpdateEqualsBitSerialForm : Prop :=
  ∀ (crc : BitVec 16) (b : Byte), upd16 crc b = upd16Serial crc b

/-- The spec's own inference (R150, marked as derived from R142, R144 and R145): the CRC of a string followed by its own
CRC is 0. -/
def Obligations.ChecksumResidueIsZero : Prop :=
  ∀ s : List Byte,
    crc16 (s ++ [(crc16 s).extractLsb' 0 8, (crc16 s).extractLsb' 8 8]) = 0 ∧
      crc32 (s ++ [(crc32 s).extractLsb' 0 8, (crc32 s).extractLsb' 8 8, (crc32 s).extractLsb' 16 8,
        (crc32 s).extractLsb' 24 8]) = 0

/-- R146: CRC16. -/
def Obligations.Crc16Command : Prop :=
  encode .crc16 = 0x00000001#32 ∧
    (∀ s : State, s.pend.toNat % 16 = 1 → s.pend.toNat / 16 ≠ 0 →
      engineStep s = .next { s with err := 1, busy := false, done := true }) ∧
    crc16 [0x12, 0x34] = 0xCF26#16 ∧
    ∀ s : State,
      (s.off.toNat + s.len.toNat ≤ s.params.bufBytes →
        exec .crc16 s = .next { s with
          crcr := (crc16 (memRead s s.off.toNat s.len.toNat)).setWidth 32,
          cz := decide (crc16 (memRead s s.off.toNat s.len.toNat) = 0), err := 0, busy := false, done := true }) ∧
        (s.len = 0 → s.off.toNat ≤ s.params.bufBytes →
          exec .crc16 s = .next { s with crcr := 0x6363, cz := false, err := 0, busy := false, done := true }) ∧
        (s.params.bufBytes < s.off.toNat + s.len.toNat →
          exec .crc16 s = .next { s with err := 4, busy := false, done := true })

/-- R147: CRC16A, with the two appended bytes, and the CRC16 over input and checksum that gives 0. -/
def Obligations.Crc16AppendCommand : Prop :=
  encode .crc16a = 0x00000002#32 ∧
    (∀ s : State, s.pend.toNat % 16 = 2 → s.pend.toNat / 16 ≠ 0 →
      engineStep s = .next { s with err := 1, busy := false, done := true }) ∧
    crc16 [0x00, 0x00] = 0x1EA0#16 ∧ crc16 [] = 0x6363#16 ∧
    ∀ s : State,
      (s.off.toNat + s.len.toNat + 2 ≤ s.params.bufBytes →
        ∃ t, exec .crc16a s = .next t ∧
          (∀ x, bufByte t x =
            if x = s.off.toNat + s.len.toNat then (crc16 (memRead s s.off.toNat s.len.toNat)).extractLsb' 0 8
            else if x = s.off.toNat + s.len.toNat + 1 then
              (crc16 (memRead s s.off.toNat s.len.toNat)).extractLsb' 8 8
            else bufByte s x) ∧
          t = { s with
            crcr := (crc16 (memRead s s.off.toNat s.len.toNat)).setWidth 32,
            cz := decide (crc16 (memRead s s.off.toNat s.len.toNat) = 0), buf := t.buf, err := 0, busy := false,
            done := true } ∧
          (s.len.toNat + 2 < 65536 →
            exec .crc16 { t with len := s.len + 2 } = .next { t with len := s.len + 2, crcr := 0, cz := true })) ∧
        (s.params.bufBytes < s.off.toNat + s.len.toNat + 2 →
          exec .crc16a s = .next { s with err := 4, busy := false, done := true })

/-- R148: CRC32. -/
def Obligations.Crc32Command : Prop :=
  encode .crc32 = 0x00000003#32 ∧
    (∀ s : State, s.pend.toNat % 16 = 3 → s.pend.toNat / 16 ≠ 0 →
      engineStep s = .next { s with err := 1, busy := false, done := true }) ∧
    crc32 [0xFF, 0xFF, 0xFF, 0xFF] = 0 ∧
    crc32 [0x31, 0x32, 0x33, 0x34, 0x35, 0x36, 0x37, 0x38, 0x39] = 0x340BC6D9#32 ∧
    ∀ s : State,
      (s.off.toNat + s.len.toNat ≤ s.params.bufBytes →
        exec .crc32 s = .next { s with
          crcr := crc32 (memRead s s.off.toNat s.len.toNat),
          cz := decide (crc32 (memRead s s.off.toNat s.len.toNat) = 0), err := 0, busy := false, done := true }) ∧
        (s.len = 0 → s.off.toNat ≤ s.params.bufBytes →
          exec .crc32 s = .next { s with crcr := 0xFFFFFFFF, cz := false, err := 0, busy := false, done := true }) ∧
        (s.params.bufBytes < s.off.toNat + s.len.toNat →
          exec .crc32 s = .next { s with err := 4, busy := false, done := true })

/-- R149: CRC32A, with the four appended bytes, and the CRC32 over input and checksum that gives 0. -/
def Obligations.Crc32AppendCommand : Prop :=
  encode .crc32a = 0x00000004#32 ∧
    (∀ s : State, s.pend.toNat % 16 = 4 → s.pend.toNat / 16 ≠ 0 →
      engineStep s = .next { s with err := 1, busy := false, done := true }) ∧
    crc32 [] = 0xFFFFFFFF#32 ∧
    crc32 [0x31, 0x32, 0x33, 0x34, 0x35, 0x36, 0x37, 0x38, 0x39] = 0x340BC6D9#32 ∧
    ∀ s : State,
      (s.off.toNat + s.len.toNat + 4 ≤ s.params.bufBytes →
        ∃ t, exec .crc32a s = .next t ∧
          (∀ i, i < 4 → bufByte t (s.off.toNat + s.len.toNat + i) =
            (crc32 (memRead s s.off.toNat s.len.toNat)).extractLsb' (8 * i) 8) ∧
          (∀ x, x < s.off.toNat + s.len.toNat ∨ s.off.toNat + s.len.toNat + 4 ≤ x → bufByte t x = bufByte s x) ∧
          t = { s with
            crcr := crc32 (memRead s s.off.toNat s.len.toNat),
            cz := decide (crc32 (memRead s s.off.toNat s.len.toNat) = 0), buf := t.buf, err := 0, busy := false,
            done := true } ∧
          (s.len.toNat + 4 < 65536 →
            exec .crc32 { t with len := s.len + 4 } = .next { t with len := s.len + 4, crcr := 0, cz := true })) ∧
        (s.params.bufBytes < s.off.toNat + s.len.toNat + 4 →
          exec .crc32a s = .next { s with err := 4, busy := false, done := true })

/-- The spec's own inference (R151, marked as derived from R146 to R149): the CRC commands read only OFF, LEN and BUF (and the constant BUF_BYTES), and write only CRCR, STATUS and the
bytes they append. -/
def Obligations.ChecksumCommandsTouchOnlyTheirState : Prop :=
  ∀ (i : Instr) (s₁ s₂ : State), i = .crc16 ∨ i = .crc16a ∨ i = .crc32 ∨ i = .crc32a →
    s₁.params = s₂.params → s₁.off = s₂.off → s₁.len = s₂.len →
      (∀ x, x < s₁.params.bufBytes → bufByte s₁ x = bufByte s₂ x) →
        ∃ t₁ t₂, exec i s₁ = .next t₁ ∧ exec i s₂ = .next t₂ ∧ t₁.err = t₂.err ∧
          (t₁.err = 0 → t₁.crcr = t₂.crcr ∧ t₁.cz = t₂.cz) ∧
          (∀ x, x < s₁.params.bufBytes → bufByte t₁ x = bufByte t₂ x) ∧
          (∀ x, x < s₁.off.toNat + s₁.len.toNat ∨ reach i s₁ ≤ x → bufByte t₁ x = bufByte s₁ x) ∧
          t₁ = { s₁ with
            crcr := t₁.crcr, cz := t₁.cz, err := t₁.err, busy := false, done := true, buf := t₁.buf }

/-! ### Keys and subkeys (41_keys_subkeys.md) -/

/-- R170, R171, R172: the component keys are consecutive slices of KEY, and the block sizes. -/
def Obligations.ComponentKeysAreConsecutiveSlices : Prop :=
  (∀ (key : Bytes 24) (i : Nat) (h : i < 8),
    (key1 key)[i] = key[i] ∧ (key2 key)[i] = key[i + 8] ∧ (key3 key)[i] = key[i + 16]) ∧
    (∀ (key : Bytes 24) (i : Nat) (h : i < 16), (keyA key)[i] = key[i]) ∧
    (∀ t : KeyType, t.blockSize = if t = .aes then 16 else 8) ∧
    ∀ (P : Primitives) (t : KeyType) (k₁ k₂ : Bytes 24) (o : CipherOp) (x : Bytes t.blockSize),
      (∀ (i : Nat) (h : i < 24), (i < 8 ∨ (t ≠ .des ∧ i < 16) ∨ t = .tdes3) → k₁[i] = k₂[i]) →
        cipher P t k₁ o x = cipher P t k₂ o x

/-- R173: which primitive, under which component key, in which order. -/
def Obligations.BlockOperationDispatch : Prop :=
  ∀ (P : Primitives) (key : Bytes 24) (x : Bytes 8) (y : Bytes 16),
    cipher P .des key .encipher x = P.desE (key1 key) x ∧
      cipher P .des key .decipher x = P.desD (key1 key) x ∧
      cipher P .tdes2 key .encipher x = P.desE (key1 key) (P.desD (key2 key) (P.desE (key1 key) x)) ∧
      cipher P .tdes2 key .decipher x = P.desD (key1 key) (P.desE (key2 key) (P.desD (key1 key) x)) ∧
      cipher P .tdes3 key .encipher x = P.desE (key3 key) (P.desD (key2 key) (P.desE (key1 key) x)) ∧
      cipher P .tdes3 key .decipher x = P.desD (key1 key) (P.desE (key2 key) (P.desD (key3 key) x)) ∧
      cipher P .aes key .encipher y = P.aesE (keyA key) y ∧
      cipher P .aes key .decipher y = P.aesD (keyA key) y

/-- The spec's own inference (R174, marked as derived from R173): under the inversion hypothesis for DES, two-key 3DES with k ‖ k is DES with k. -/
def Obligations.EqualHalvesMakeTripleDesSingleDes : Prop :=
  ∀ (P : Primitives) (k₁ k₂ : Bytes 24) (o : CipherOp) (x : Bytes 8),
    (∀ k y, P.desD k (P.desE k y) = y) → (∀ k y, P.desE k (P.desD k y) = y) →
      key1 k₁ = key2 k₁ → key1 k₂ = key1 k₁ → cipher P .tdes2 k₁ o x = cipher P .des k₂ o x

/-- R176: doubling, on the block read as a big-endian number. -/
def Obligations.DoublingIsBigEndianShiftWithRb : Prop :=
  (∀ x : Bytes 8, beNat (dbl x) =
    if 2 ^ 63 ≤ beNat x then (2 * beNat x % 2 ^ 64) ^^^ 0x1B else 2 * beNat x % 2 ^ 64) ∧
    (∀ x : Bytes 16, beNat (dbl x) =
      if 2 ^ 127 ≤ beNat x then (2 * beNat x % 2 ^ 128) ^^^ 0x87 else 2 * beNat x % 2 ^ 128) ∧
    ∀ (n : Nat) (x : Bytes n), beNat x < 2 ^ (8 * n) ∧ beBytes n (beNat x) = x

/-- The spec's own inference (R178, marked as derived from R176 and R177): doubling is a bijection that fixes only the zero block, so DERIVE leaves K1 = K2 exactly when L is zero. -/
def Obligations.SubkeysAreEqualExactlyForZeroL : Prop :=
  (Function.Bijective (fun x : Bytes 8 => dbl x) ∧ ∀ x : Bytes 8, dbl x = x ↔ x = Bytes.zero 8) ∧
    (Function.Bijective (fun x : Bytes 16 => dbl x) ∧ ∀ x : Bytes 16, dbl x = x ↔ x = Bytes.zero 16) ∧
    ∀ (c : Ctx) (s : State), (s.ctx c).kvalid = true →
      ∃ t, exec (.derive c) s = .next t ∧
        ((t.ctx c).k1 = (t.ctx c).k2 ↔
          subkeyL Config.primitives (s.ctx c).keyType (s.ctx c).key = Bytes.zero (s.ctx c).keyType.blockSize)

/-- R177: DERIVE. -/
def Obligations.DeriveCommand : Prop :=
  encode (.derive .explicit) = 0x00000007#32 ∧ encode (.derive .session) = 0x00000017#32 ∧
    (∀ s : State, s.pend.toNat % 16 = 7 → s.pend.toNat / 32 ≠ 0 →
      engineStep s = .next { s with err := 1, busy := false, done := true }) ∧
    ∀ (c : Ctx) (s : State),
      ((s.ctx c).kvalid = true →
        ∃ t, exec (.derive c) s = .next t ∧
          (∀ (i : Nat) (h : i < 16),
            (t.ctx c).k1[i] = byteAt (dbl (subkeyL Config.primitives (s.ctx c).keyType (s.ctx c).key)) i ∧
              (t.ctx c).k2[i] = byteAt (dbl (dbl (subkeyL Config.primitives (s.ctx c).keyType (s.ctx c).key))) i) ∧
          (∀ x, bufByte t x = bufByte s x) ∧
          t = { s.setCtx c { s.ctx c with k1 := (t.ctx c).k1, k2 := (t.ctx c).k2, skvalid := true } with
            err := 0, busy := false, done := true }) ∧
        ((s.ctx c).kvalid = false →
          exec (.derive c) s = .next { s with err := 2, busy := false, done := true })

/-- The spec's own inference (R179, marked as derived from R173 and R177): DERIVE's results depend only on TYPE[c] and KEY[c], and a second DERIVE writes the same values. -/
def Obligations.DeriveIsDeterministic : Prop :=
  ∀ (c : Ctx) (s₁ s₂ : State), (s₁.ctx c).kvalid = true → (s₂.ctx c).kvalid = true →
    (s₁.ctx c).keyType = (s₂.ctx c).keyType → (s₁.ctx c).key = (s₂.ctx c).key →
      ∃ t₁ t₂, exec (.derive c) s₁ = .next t₁ ∧ exec (.derive c) s₂ = .next t₂ ∧
        (t₁.ctx c).k1 = (t₂.ctx c).k1 ∧ (t₁.ctx c).k2 = (t₂.ctx c).k2 ∧ exec (.derive c) t₁ = .next t₁

/-! ### Block chaining (42_block_chaining.md) -/

/-- R190: the chaining step in both directions. -/
def Obligations.ChainingStepInBothDirections : Prop :=
  ∀ (P : Primitives) (t : KeyType) (key : Bytes 24) (o : CipherOp) (x iv : Bytes t.blockSize),
    cbcStep P t key .send o x iv = (cipher P t key o (xorBytes x iv), cipher P t key o (xorBytes x iv)) ∧
      cbcStep P t key .receive o x iv = (xorBytes (cipher P t key o x) iv, x)

/-- R194: CBC1 where it completes. The stored bytes are the bs(c) bytes at OFF. -/
def Obligations.Cbc1CompletesInPlace : Prop :=
  ∀ (c : Ctx) (d : Dir) (o : CipherOp) (s : State), (s.ctx c).kvalid = true →
    s.off.toNat + (s.ctx c).keyType.blockSize ≤ s.params.bufBytes →
      ∃ t r, r = cbcStep Config.primitives (s.ctx c).keyType (s.ctx c).key d o
            (readBlock s s.off.toNat (s.ctx c).keyType.blockSize)
            (chainIv (s.ctx c) (s.ctx c).keyType.blockSize) ∧
        exec (.cbc1 c d o) s = .next t ∧
        readBlock t s.off.toNat (s.ctx c).keyType.blockSize = r.1 ∧
        (∀ x, x < s.off.toNat ∨ s.off.toNat + (s.ctx c).keyType.blockSize ≤ x → bufByte t x = bufByte s x) ∧
        chainIv (t.ctx c) (s.ctx c).keyType.blockSize = r.2 ∧
        (∀ (j : Nat) (h : j < 16), (s.ctx c).keyType.blockSize ≤ j → (t.ctx c).iv[j] = (s.ctx c).iv[j]) ∧
        t = { s.setCtx c { s.ctx c with iv := (t.ctx c).iv } with
          buf := t.buf, err := 0, busy := false, done := true }

/-- R195, R191, R192: CBCN where it completes is standard CBC, in place: on Send each output block is the cipher of the
input block XORed with the output block before it; on Receive it is the cipher of the input block, XORed with the input
block before it. -/
def Obligations.CbcnCompletesAsStandardCbc : Prop :=
  ∀ (c : Ctx) (d : Dir) (o : CipherOp) (s : State) (b n a : Nat), b = (s.ctx c).keyType.blockSize →
    n = s.len.toNat → a = s.off.toNat → (s.ctx c).kvalid = true → n % b = 0 → a + n ≤ s.params.bufBytes →
      ∃ t, exec (.cbcn c d o) s = .next t ∧
        (∀ i, i < n / b →
          readBlock t (a + i * b) (s.ctx c).keyType.blockSize =
            match d with
            | .send =>
              cipher Config.primitives (s.ctx c).keyType (s.ctx c).key o
                (xorBytes (readBlock s (a + i * b) (s.ctx c).keyType.blockSize)
                  (if i = 0 then startIv c s else readBlock t (a + (i - 1) * b) (s.ctx c).keyType.blockSize))
            | .receive =>
              xorBytes
                (cipher Config.primitives (s.ctx c).keyType (s.ctx c).key o
                  (readBlock s (a + i * b) (s.ctx c).keyType.blockSize))
                (if i = 0 then startIv c s else readBlock s (a + (i - 1) * b) (s.ctx c).keyType.blockSize)) ∧
        (∀ x, x < a ∨ a + n ≤ x → bufByte t x = bufByte s x) ∧
        (chainIv (t.ctx c) (s.ctx c).keyType.blockSize =
          if n = 0 then startIv c s
          else match d with
            | .send => readBlock t (a + n - b) (s.ctx c).keyType.blockSize
            | .receive => readBlock s (a + n - b) (s.ctx c).keyType.blockSize) ∧
        (∀ (j : Nat) (h : j < 16), b ≤ j →
          (t.ctx c).iv[j] = if c = .session ∧ s.gen = .legacy then 0 else (s.ctx c).iv[j]) ∧
        t = { s.setCtx c { s.ctx c with iv := (t.ctx c).iv } with
          buf := t.buf, err := 0, busy := false, done := true }

/-- The spec's own inference (R195, corner cases, marked as derived from R194 and R195): CBCN over n bytes is n / b CBC1 commands at a, a + b, ..., after the legacy reset where it
applies. -/
def Obligations.CbcnEqualsRepeatedCbc1 : Prop :=
  ∀ (P : Primitives) (c : Ctx) (d : Dir) (o : CipherOp) (s : State), s.params.wellFormed = true →
    (s.ctx c).kvalid = true → s.len.toNat % (s.ctx c).keyType.blockSize = 0 →
      s.off.toNat + s.len.toNat ≤ s.params.bufBytes →
        cbcnCommand P c d o s =
          { cbc1Chain P c d o (s.len.toNat / (s.ctx c).keyType.blockSize) s.off.toNat (complete (legacyReset c s)) with
            off := s.off }

/-- The spec's own inference (R197, marked as derived from R195): CBCN with LEN = 0 succeeds and writes nothing, except for the legacy reset. -/
def Obligations.CbcnOfNothingOnlyResetsTheIv : Prop :=
  ∀ (c : Ctx) (d : Dir) (o : CipherOp) (s : State), (s.ctx c).kvalid = true → s.len = 0 →
    s.off.toNat ≤ s.params.bufBytes →
      (c = .explicit ∨ s.gen = .new →
        exec (.cbcn c d o) s = .next { s with err := 0, busy := false, done := true }) ∧
        (c = .session → s.gen = .legacy →
          exec (.cbcn c d o) s = .next { s with
            ctx1 := { s.ctx1 with iv := Bytes.zero 16 }, err := 0, busy := false, done := true })

/-- R196: with GEN = Legacy a CBCN on context 1 whose checks pass runs as with GEN = New from an IV of 16 zero bytes, and
when a check fails nothing is reset. With GEN = New, or on context 0, a CBCN carries the IV forward: its first block takes
the context's current IV, and with no block the IV stays. CBC1 carries it forward always. On context 0, and for CBC1, GEN
makes no difference. -/
def Obligations.LegacyResetIsCbcnOnTheSessionOnly : Prop :=
  ∀ (d : Dir) (o : CipherOp) (s : State),
    (s.gen = .legacy → s.ctx1.kvalid = true → s.len.toNat % s.ctx1.keyType.blockSize = 0 →
      s.off.toNat + s.len.toNat ≤ s.params.bufBytes →
        ∃ t, exec (.cbcn .session d o) { s with gen := .new, ctx1 := { s.ctx1 with iv := Bytes.zero 16 } } = .next t ∧
          exec (.cbcn .session d o) s = .next { t with gen := .legacy }) ∧
      (s.gen = .legacy →
        s.ctx1.kvalid = false ∨ s.len.toNat % s.ctx1.keyType.blockSize ≠ 0 ∨
            s.params.bufBytes < s.off.toNat + s.len.toNat →
          ∃ t, exec (.cbcn .session d o) s = .next t ∧ t.ctx1 = s.ctx1) ∧
      (∀ c : Ctx, c = .explicit ∨ s.gen = .new → (s.ctx c).kvalid = true →
        s.len.toNat % (s.ctx c).keyType.blockSize = 0 → s.off.toNat + s.len.toNat ≤ s.params.bufBytes →
          ∃ t, exec (.cbcn c d o) s = .next t ∧
            (s.len = 0 → (t.ctx c).iv = (s.ctx c).iv) ∧
            (s.len ≠ 0 → readBlock t s.off.toNat (s.ctx c).keyType.blockSize =
              (cbcStep Config.primitives (s.ctx c).keyType (s.ctx c).key d o
                (readBlock s s.off.toNat (s.ctx c).keyType.blockSize)
                (chainIv (s.ctx c) (s.ctx c).keyType.blockSize)).1) ∧
            ∀ (j : Nat) (h : j < 16), (s.ctx c).keyType.blockSize ≤ j → (t.ctx c).iv[j] = (s.ctx c).iv[j]) ∧
      (∀ c : Ctx, (s.ctx c).kvalid = true → s.off.toNat + (s.ctx c).keyType.blockSize ≤ s.params.bufBytes →
        ∃ t r, exec (.cbc1 c d o) s = .next t ∧
          r = cbcStep Config.primitives (s.ctx c).keyType (s.ctx c).key d o
            (readBlock s s.off.toNat (s.ctx c).keyType.blockSize) (chainIv (s.ctx c) (s.ctx c).keyType.blockSize) ∧
          readBlock t s.off.toNat (s.ctx c).keyType.blockSize = r.1 ∧
          chainIv (t.ctx c) (s.ctx c).keyType.blockSize = r.2 ∧
          ∀ (j : Nat) (h : j < 16), (s.ctx c).keyType.blockSize ≤ j → (t.ctx c).iv[j] = (s.ctx c).iv[j]) ∧
      (∀ g, ∃ t, exec (.cbcn .explicit d o) s = .next t ∧
        exec (.cbcn .explicit d o) { s with gen := g } = .next { t with gen := g }) ∧
      ∀ (c : Ctx) (g : Generation), ∃ t, exec (.cbc1 c d o) s = .next t ∧
        exec (.cbc1 c d o) { s with gen := g } = .next { t with gen := g }

/-- R193: with 8-byte blocks a command reads and writes only IV[c][0..8), except under the legacy reset: two IVs that agree
on those bytes lead to the same state but for IV[c][8..16). -/
def Obligations.EightByteBlocksUseEightIvBytes : Prop :=
  ∀ (i : Instr) (c : Ctx) (s : State) (w : Bytes 16),
    Instr.usesContext i = some c → (s.ctx c).keyType.blockSize = 8 →
      (∀ (j : Nat) (h : j < 16), j < 8 → w[j] = (s.ctx c).iv[j]) →
        ∃ t₁ t₂, exec i s = .next t₁ ∧ exec i (setIv c w s) = .next t₂ ∧ t₂ = setIv c (t₂.ctx c).iv t₁ ∧
          (∀ (j : Nat) (h : j < 16), j < 8 → (t₁.ctx c).iv[j] = (t₂.ctx c).iv[j]) ∧
          ((∃ d o, i = .cbcn c d o) ∧ c = .session ∧ s.gen = .legacy ∧ t₁.err = 0 →
            ∀ (j : Nat) (h : j < 16), 8 ≤ j → (t₁.ctx c).iv[j] = 0) ∧
          (¬((∃ d o, i = .cbcn c d o) ∧ c = .session ∧ s.gen = .legacy ∧ t₁.err = 0) →
            ∀ (j : Nat) (h : j < 16), 8 ≤ j → (t₁.ctx c).iv[j] = (s.ctx c).iv[j])

/-- The spec's own inference (R198, marked as derived from R173, R190 and R195): under the inversion hypothesis, Send with one operation, then Receive with the other from the same IV, gives
BUF back, and the IV is the last ciphertext block after each. -/
def Obligations.SendThenReceiveRoundTrips : Prop :=
  ∀ (P : Primitives) (c : Ctx) (o : CipherOp) (s : State), P.Inverts → (s.ctx c).kvalid = true →
    s.len.toNat % (s.ctx c).keyType.blockSize = 0 → s.off.toNat + s.len.toNat ≤ s.params.bufBytes →
      ∀ t u, t = cbcnCommand P c .send o s →
        u = cbcnCommand P c .receive (inverseOp o) (setIv c (s.ctx c).iv t) →
          (∀ x, bufByte u x = bufByte s x) ∧ u.err = 0 ∧
            (0 < s.len.toNat →
              chainIv (t.ctx c) (s.ctx c).keyType.blockSize =
                  readBlock t (s.off.toNat + s.len.toNat - (s.ctx c).keyType.blockSize) (s.ctx c).keyType.blockSize ∧
                chainIv (u.ctx c) (s.ctx c).keyType.blockSize = chainIv (t.ctx c) (s.ctx c).keyType.blockSize)

/-! ### Completion, errors and the interrupt (60_exceptions.md) -/

/-- R233, R234: the result code of every command, in the order of priority. -/
def Obligations.ErrorCodesInPriorityOrder : Prop :=
  ∀ s : State, ∃ t, engineStep s = .next t ∧
    t.err =
      match decode s.pend with
      | .error _ => 1
      | .ok i =>
        if lacksKey i s then 2 else if badLength i s then 3 else if s.params.bufBytes < reach i s then 4 else 0

/-- The spec's own inference (R236, marked as derived from the command rules): a failed command changes STATUS.ERR, BUSY and DONE and nothing else. -/
def Obligations.FailedCommandChangesOnlyStatus : Prop :=
  ∀ s t : State, engineStep s = .next t → t.err ≠ 0 →
    t = { s with err := t.err, busy := false, done := true } ∧ ∀ x, bufByte t x = bufByte s x

/-- R25, R26, R29, R30, R235: every command completes, and the engine never writes CTRL, OFF, LEN, OVR, PEND, a TYPE, a
KVALID or a KEY. -/
def Obligations.EngineNeverWritesItsOperands : Prop :=
  ∀ (i : Instr) (s : State), ∃ t, exec i s = .next t ∧ t.busy = false ∧ t.done = true ∧
    t = { s with
      ctx0 := { s.ctx0 with iv := t.ctx0.iv, k1 := t.ctx0.k1, k2 := t.ctx0.k2, skvalid := t.ctx0.skvalid },
      ctx1 := { s.ctx1 with iv := t.ctx1.iv, k1 := t.ctx1.k1, k2 := t.ctx1.k2, skvalid := t.ctx1.skvalid },
      buf := t.buf, crcr := t.crcr, cz := t.cz, err := t.err, busy := false, done := true } ∧
    ∀ c, Instr.usesContext i ≠ some c → t.ctx c = s.ctx c

/-- R26, R31: only a successful CRC command changes CRCR and CZ, and then CZ says whether CRCR is 0. -/
def Obligations.CrcResultChangesOnlyOnSuccessfulCrc : Prop :=
  ∀ s t : State, engineStep s = .next t →
    (t.crcr = s.crcr ∧ t.cz = s.cz) ∨
      (t.err = 0 ∧ t.cz = decide (t.crcr = 0) ∧
        ∃ i, decode s.pend = .ok i ∧ (i = .crc16 ∨ i = .crc16a ∨ i = .crc32 ∨ i = .crc32a))

/-- R33, R238: the interrupt output through completion, acceptance and acknowledgement. -/
def Obligations.InterruptFollowsEnableAndDone : Prop :=
  ∀ s : State,
    (irq s = true ↔ s.ie = true ∧ s.done = true) ∧
      (∃ t, engineStep s = .next t ∧ irq t = s.ie) ∧
      (∀ v, s.busy = false → irq (hostAccess (.write 0x00C v) s) = false) ∧
      (∀ v : Word, v.getLsbD 1 = true → irq (hostAccess (.write 0x008 v) s) = false) ∧
      (∀ v : Word, s.busy = false → irq (hostAccess (.write 0x004 v) s) = (v.getLsbD 0 && s.done))

/-- R26, R231, R235: BUSY rises only when an idle block accepts a command and falls only by the engine's step or a reset;
DONE rises only by the engine's step and falls only by acceptance, a write of 1 to it, or a reset. -/
def Obligations.BusyAndDoneChangeOnlyAsStated : Prop :=
  ∀ s t : State, step s = .next t →
    (s.busy = false → t.busy = true → ∃ v rest, s.script = .host (.write 0x00C v) :: rest ∧ t.pend = v) ∧
      (s.busy = true → t.busy = false →
        (∃ rest, s.script = .reset :: rest) ∨ s.script = [] ∨ ∃ rest, s.script = .engine :: rest) ∧
      (s.done = false → t.done = true →
        s.busy = true ∧ t.busy = false ∧ (s.script = [] ∨ ∃ rest, s.script = .engine :: rest)) ∧
      (s.done = true → t.done = false →
        (∃ rest, s.script = .reset :: rest) ∨ (∃ v rest, s.script = .host (.write 0x00C v) :: rest ∧ s.busy = false) ∨
          ∃ v rest, s.script = .host (.write 0x008 v) :: rest ∧ v.getLsbD 1 = true)

/-- R26, R34: OVR is sticky. It rises only by an aligned write to another register than STATUS while busy, and falls only by
a write of 1 to it or a reset. The report of a misaligned access (log entry 6, the model's own) never falls. -/
def Obligations.OverrunIsStickyUntilCleared : Prop :=
  ∀ s t : State, step s = .next t →
    (s.ovr = false → t.ovr = true → s.busy = true ∧
      ∃ addr v rest, s.script = .host (.write addr v) :: rest ∧ addr.toNat % 4 = 0 ∧ addr ≠ 0x008) ∧
      (s.ovr = true → t.ovr = false →
        (∃ rest, s.script = .reset :: rest) ∨
          ∃ v rest, s.script = .host (.write 0x008 v) :: rest ∧ v.getLsbD 3 = true) ∧
      (s.hostFault = true → t.hostFault = true)

/-- R231: acceptance of a command word, legal or reserved. -/
def Obligations.CommandAcceptance : Prop :=
  ∀ (s : State) (v : Word), s.busy = false →
    hostAccess (.write 0x00C v) s =
        { s with pend := v, busy := true, done := false, err := 0, reply := some ⟨.ok, none⟩ } ∧
      irq (hostAccess (.write 0x00C v) s) = false

/-- R34, R35, R87 and R235, over the model's script of events (log entry 5): while a command is in progress no access of the host, however many there are and wherever they
fall, changes what the command does: only STATUS.OVR can differ. -/
def Obligations.HostCannotDisturbARunningCommand : Prop :=
  ∀ (s : State) (as : List Access) (rest : List Event), s.busy = true →
    ∃ t₁ t₂,
      Host.Core.run core (as.length + 1) { s with script := as.map Event.host ++ .engine :: rest } = .next t₁ ∧
        step { s with script := .engine :: rest } = .next t₂ ∧ t₁.script = rest ∧ t₁.busy = false ∧
        { t₁.block with ovr := false } = { t₂.block with ovr := false }

/-- The spec's own inference (R262 (5), and I22 of 93_implementation_defined.md): a command whose input bytes have all been written does not depend on what BUF held after reset. -/
def Obligations.WrittenInputGivesDefinedResult : Prop :=
  ∀ (i : Instr) (s : State) (e : Nat), s.written s.off.toNat (inputLength i s) →
    ∃ t, exec i s = .next t ∧ exec i { s with epoch := e } = .next { t with epoch := e }

/-! ### The bus and the registers (10_state.md, 20_memory.md) -/

/-- R82, with the model's own report of the host's fault (log entry 6): a misaligned access is answered with ERROR and has
no effect on the block, and every aligned one is answered OK. -/
def Obligations.MisalignedAccessIsAnsweredWithError : Prop :=
  ∀ (s : State) (addr : Half) (v : Word),
    (addr.toNat % 4 ≠ 0 →
      hostAccess (.read addr) s = { s with reply := some ⟨.error, some 0⟩, hostFault := true } ∧
        hostAccess (.write addr v) s = { s with reply := some ⟨.error, none⟩, hostFault := true }) ∧
      (addr.toNat % 4 = 0 →
        (∃ r, (hostAccess (.read addr) s).reply = some ⟨.ok, some r⟩) ∧
          (hostAccess (.write addr v) s).reply = some ⟨.ok, none⟩ ∧
          (hostAccess (.read addr) s).hostFault = s.hostFault ∧
          (hostAccess (.write addr v) s).hostFault = s.hostFault)

/-- R22, R83: every register is at its offset, and no two share one. -/
def Obligations.RegisterMapIsABijection : Prop :=
  ∀ p : Params, p.wellFormed = true →
    (∀ r : Reg, r ≠ .unmapped → (∀ j, r = .buf j → j < p.bufBytes / 4) →
      r.offset < 65536 ∧ r.offset % 4 = 0 ∧ regAt p (BitVec.ofNat 16 r.offset) = r) ∧
      ∀ addr : Half, addr.toNat % 4 = 0 → regAt p addr ≠ .unmapped → (regAt p addr).offset = addr.toNat

/-- R34: a write while busy is ignored and sets OVR, except a write to STATUS, which acts as R27 says. -/
def Obligations.WriteWhileBusyIsIgnored : Prop :=
  ∀ (s : State) (addr : Half) (v : Word), s.busy = true → addr.toNat % 4 = 0 →
    (addr ≠ 0x008 →
      hostAccess (.write addr v) s = { s with ovr := true, reply := some ⟨.ok, none⟩ }) ∧
      (addr = 0x008 →
        hostAccess (.write addr v) s =
          { s with
            done := s.done && !v.getLsbD 1, ovr := s.ovr && !v.getLsbD 3, reply := some ⟨.ok, none⟩ })

/-- R27: a write to STATUS, busy or not. -/
def Obligations.StatusWriteClearsDoneAndOverrun : Prop :=
  ∀ (s : State) (v : Word), ∃ t, hostAccess (.write 0x008 v) s = t ∧
    (v.getLsbD 1 = true → t.done = false) ∧ (v.getLsbD 1 = false → t.done = s.done) ∧
    (v.getLsbD 3 = true → t.ovr = false) ∧ (v.getLsbD 3 = false → t.ovr = s.ovr) ∧
    t = { s with done := t.done, ovr := t.ovr, reply := some ⟨.ok, none⟩ }

/-- R88, R35, R43: no read has a side effect on the block; while idle, and at the registers R35 leaves defined while
busy, two reads agree; a KEY word reads 0 always. -/
def Obligations.ReadsHaveNoSideEffect : Prop :=
  ∀ (s : State) (addr : Half),
    (hostAccess (.read addr) s).block = s.block ∧
      (s.busy = false ∨ (regAt s.params addr).hiddenWhileBusy = false →
        (hostAccess (.read addr) (hostAccess (.read addr) s)).reply = (hostAccess (.read addr) s).reply) ∧
      ∀ (c : Ctx) (w : Fin 6),
        hostAccess (.read (BitVec.ofNat 16 (0x120 + 0x100 * c.code + 4 * w.val))) s =
          { s with reply := some ⟨.ok, some 0⟩ }

/-- R24, R25, R26, R28, R29, R30, R32, R35: what a bus read of ID, CTRL, STATUS, CMD, OFF, LEN, BUFSIZE or an unoccupied
word (log entry 14 for those inside a context's range) answers, busy or not. R31, R41: the same of CRCR and KEYCFG while
idle. Each read changes nothing but the answer. -/
def Obligations.RegistersReadTheirFields : Prop :=
  ∀ s : State,
    hostAccess (.read 0x000) s = { s with reply := some ⟨.ok, some 0x45504231⟩ } ∧
      (∃ v, hostAccess (.read 0x004) s = { s with reply := some ⟨.ok, some v⟩ } ∧
        v.toNat = s.ie.toNat + 2 * (genBit s.gen).toNat) ∧
      (∃ v, hostAccess (.read 0x008) s = { s with reply := some ⟨.ok, some v⟩ } ∧
        v.toNat = s.busy.toNat + 2 * s.done.toNat + 4 * s.cz.toNat + 8 * s.ovr.toNat + 16 * s.err.toNat) ∧
      hostAccess (.read 0x00C) s = { s with reply := some ⟨.ok, some 0⟩ } ∧
      (∃ v, hostAccess (.read 0x010) s = { s with reply := some ⟨.ok, some v⟩ } ∧ v.toNat = s.off.toNat) ∧
      (∃ v, hostAccess (.read 0x014) s = { s with reply := some ⟨.ok, some v⟩ } ∧ v.toNat = s.len.toNat) ∧
      (∃ v, hostAccess (.read 0x01C) s = { s with reply := some ⟨.ok, some v⟩ } ∧
        (s.params.wellFormed = true → v.toNat = s.params.bufBytes)) ∧
      (∀ addr : Half, addr.toNat % 4 = 0 → unoccupied s.params.bufBytes addr.toNat →
        hostAccess (.read addr) s = { s with reply := some ⟨.ok, some 0⟩ }) ∧
      (s.busy = false →
        hostAccess (.read 0x018) s = { s with reply := some ⟨.ok, some s.crcr⟩ } ∧
          ∀ c : Ctx, ∃ v,
            hostAccess (.read (BitVec.ofNat 16 (0x100 + 0x100 * c.code))) s =
                { s with reply := some ⟨.ok, some v⟩ } ∧
              v.toNat =
                (s.ctx c).keyType.code.toNat + 256 * (s.ctx c).kvalid.toNat + 512 * (s.ctx c).skvalid.toNat)

/-- R25, R29, R30: writes to CTRL, OFF and LEN while idle, reserved bits ignored. -/
def Obligations.OperandRegisterWrites : Prop :=
  ∀ (s : State) (v : Word), s.busy = false →
    (hostAccess (.write 0x004 v) s = { s with
      ie := v.getLsbD 0, gen := if v.getLsbD 1 then .new else .legacy, reply := some ⟨.ok, none⟩ }) ∧
      hostAccess (.write 0x010 v) s = { s with off := v.extractLsb' 0 16, reply := some ⟨.ok, none⟩ } ∧
      hostAccess (.write 0x014 v) s = { s with len := v.extractLsb' 0 16, reply := some ⟨.ok, none⟩ }

/-- R23, R24, R31, R32, R45: a write to a read-only register or an unoccupied word while idle is ignored, and OVR is not
set. The unoccupied words inside a context's range are those of log entry 14. -/
def Obligations.ReadOnlyWordsIgnoreWrites : Prop :=
  ∀ (s : State) (addr : Half) (v : Word), s.busy = false → addr.toNat % 4 = 0 →
    (addr = 0x000 ∨ addr = 0x018 ∨ addr = 0x01C ∨ (0x160 ≤ addr.toNat ∧ addr.toNat < 0x180) ∨
      (0x260 ≤ addr.toNat ∧ addr.toNat < 0x280) ∨ unoccupied s.params.bufBytes addr.toNat) →
        hostAccess (.write addr v) s = { s with reply := some ⟨.ok, none⟩ }

/-- R42: a write to KEYCFG[c] commits the key and drops its subkeys. -/
def Obligations.KeycfgWriteCommitsTheKey : Prop :=
  ∀ (s : State) (c : Ctx) (v : Word), s.busy = false →
    ∃ t, hostAccess (.write (BitVec.ofNat 16 (0x100 + 0x100 * c.code)) v) s = t ∧
      (t.ctx c).keyType.code = v.extractLsb' 0 2 ∧ (t.ctx c).kvalid = true ∧ (t.ctx c).skvalid = false ∧
      (t.ctx c).k1 = Bytes.zero 16 ∧ (t.ctx c).k2 = Bytes.zero 16 ∧ (t.ctx c).key = (s.ctx c).key ∧
      (t.ctx c).iv = (s.ctx c).iv ∧ t = { s.setCtx c (t.ctx c) with reply := some ⟨.ok, none⟩ }

/-- R43: a write to a KEY word stores its four bytes and invalidates the key and its subkeys. -/
def Obligations.KeyWriteInvalidatesTheKey : Prop :=
  ∀ (s : State) (c : Ctx) (w : Fin 6) (v : Word), s.busy = false →
    ∃ t, hostAccess (.write (BitVec.ofNat 16 (0x120 + 0x100 * c.code + 4 * w.val)) v) s = t ∧
      (∀ (j : Nat) (h : j < 24), (t.ctx c).key[j] =
        if j / 4 = w.val then v.extractLsb' (8 * (j % 4)) 8 else (s.ctx c).key[j]) ∧
      (t.ctx c).kvalid = false ∧ (t.ctx c).skvalid = false ∧ (t.ctx c).k1 = Bytes.zero 16 ∧
      (t.ctx c).k2 = Bytes.zero 16 ∧ (t.ctx c).keyType = (s.ctx c).keyType ∧ (t.ctx c).iv = (s.ctx c).iv ∧
      t = { s.setCtx c (t.ctx c) with reply := some ⟨.ok, none⟩ }

/-- R43: KEY[c] is not readable by any path: two states that differ in key material alone answer every access alike, and
still differ in key material alone. -/
def Obligations.KeyMaterialIsNotReadable : Prop :=
  ∀ (a : Access) (s₁ s₂ : State), s₁.eraseKeys = s₂.eraseKeys →
    (hostAccess a s₁).eraseKeys = (hostAccess a s₂).eraseKeys ∧ (hostAccess a s₁).reply = (hostAccess a s₂).reply

/-- R44, R85: an IV word reads the four bytes it holds, and a write stores them and nothing else. -/
def Obligations.IvWordsPackBytesLittleEndian : Prop :=
  ∀ (s : State) (c : Ctx) (w : Fin 4) (v : Word) (addr : Half), s.busy = false →
    addr = BitVec.ofNat 16 (0x140 + 0x100 * c.code + 4 * w.val) →
      (∃ r, hostAccess (.read addr) s = { s with reply := some ⟨.ok, some r⟩ } ∧
        r.toNat = (byteAt (s.ctx c).iv (4 * w.val)).toNat + (byteAt (s.ctx c).iv (4 * w.val + 1)).toNat * 2 ^ 8 +
          (byteAt (s.ctx c).iv (4 * w.val + 2)).toNat * 2 ^ 16 +
          (byteAt (s.ctx c).iv (4 * w.val + 3)).toNat * 2 ^ 24) ∧
        ∃ t, hostAccess (.write addr v) s = t ∧
          (∀ (j : Nat) (h : j < 16), (t.ctx c).iv[j] =
            if j / 4 = w.val then v.extractLsb' (8 * (j % 4)) 8 else (s.ctx c).iv[j]) ∧
          t = { s.setCtx c { s.ctx c with iv := (t.ctx c).iv } with reply := some ⟨.ok, none⟩ } ∧
          hostAccess (.read addr) t = { t with reply := some ⟨.ok, some v⟩ }

/-- R45, R85: the K1 and K2 words read the subkey bytes, and 0 in a state that keeps R47 with SKVALID = 0. -/
def Obligations.SubkeyWordsReadTheSubkeys : Prop :=
  ∀ (s : State) (c : Ctx) (w : Fin 4), s.busy = false →
    ∃ r₁ r₂,
      hostAccess (.read (BitVec.ofNat 16 (0x160 + 0x100 * c.code + 4 * w.val))) s =
          { s with reply := some ⟨.ok, some r₁⟩ } ∧
        hostAccess (.read (BitVec.ofNat 16 (0x170 + 0x100 * c.code + 4 * w.val))) s =
          { s with reply := some ⟨.ok, some r₂⟩ } ∧
        (∀ i, i < 4 → r₁.extractLsb' (8 * i) 8 = byteAt (s.ctx c).k1 (4 * w.val + i) ∧
          r₂.extractLsb' (8 * i) 8 = byteAt (s.ctx c).k2 (4 * w.val + i)) ∧
        ((s.ctx c).Consistent Config.primitives → (s.ctx c).skvalid = false → r₁ = 0 ∧ r₂ = 0)

/-- R84: the BUF window, for every word of BUF. -/
def Obligations.BufWindowReadsAndWritesBuf : Prop :=
  ∀ (s : State) (j : Nat) (v : Word) (addr : Half), s.busy = false → s.params.wellFormed = true →
    j < s.params.bufBytes / 4 → addr = BitVec.ofNat 16 (0x8000 + 4 * j) →
      (∃ r, hostAccess (.read addr) s = { s with reply := some ⟨.ok, some r⟩ } ∧
        r.toNat = (bufByte s (4 * j)).toNat + (bufByte s (4 * j + 1)).toNat * 2 ^ 8 +
          (bufByte s (4 * j + 2)).toNat * 2 ^ 16 + (bufByte s (4 * j + 3)).toNat * 2 ^ 24) ∧
        ∃ t, hostAccess (.write addr v) s = t ∧
          (∀ i, i < 4 → bufByte t (4 * j + i) = v.extractLsb' (8 * i) 8) ∧
          (∀ x, x < 4 * j ∨ 4 * j + 4 ≤ x → bufByte t x = bufByte s x) ∧
          t = { s with buf := t.buf, reply := some ⟨.ok, none⟩ }

/-! ### Reset and the invariants -/

/-- R260, R261, R48: the reset transition, in any state, with a command in progress or not. -/
def Obligations.ResetTransition : Prop :=
  ∀ (s : State) (rest : List Event), s.script = .reset :: rest →
    ∃ t, step s = .next t ∧ t.ie = false ∧ t.gen = .legacy ∧ t.busy = false ∧ t.done = false ∧ t.cz = false ∧
      t.ovr = false ∧ t.err = 0 ∧ t.off = 0 ∧ t.len = 0 ∧ t.crcr = 0 ∧ irq t = false ∧
      (∀ c, (t.ctx c).keyType = .des ∧ (t.ctx c).kvalid = false ∧ (t.ctx c).skvalid = false ∧
        (t.ctx c).key = Bytes.zero 24 ∧ (t.ctx c).iv = Bytes.zero 16 ∧ (t.ctx c).k1 = Bytes.zero 16 ∧
        (t.ctx c).k2 = Bytes.zero 16) ∧
      (∀ a, memLookup t.buf a = none) ∧ t.params = s.params ∧ t.script = rest ∧
      ∀ more, rest = .engine :: more → step t = .next { t with script := more }

/-- R48: the values of `State.reset` that the spec gives, and the model's invariants in it. -/
def Obligations.ResetStateMeetsTheInvariants : Prop :=
  State.reset.Sound ∧ State.reset.SubkeysValid ∧ statusWord State.reset = 0 ∧ ctrlWord State.reset = 0 ∧
    State.reset.off = 0 ∧ State.reset.len = 0 ∧ State.reset.crcr = 0 ∧ irq State.reset = false ∧
    (∀ c, keycfgWord (State.reset.ctx c) = 0 ∧ (State.reset.ctx c).key = Bytes.zero 24 ∧
      (State.reset.ctx c).iv = Bytes.zero 16) ∧
    ∀ a, memLookup State.reset.buf a = none

/-- The spec's own inference (R47, marked as derived from R42, R43, R48 and R177): in every state a step reaches from one that keeps it, SKVALID[c] = 1 still implies KVALID[c] = 1 and that K1[c],
K2[c] are the subkeys of the current TYPE[c] and KEY[c] (and SKVALID[c] = 0 that they are 0, R45). -/
def Obligations.EveryStepKeepsSubkeyValidity : Prop :=
  ∀ s t : State, s.SubkeysValid → step s = .next t → t.SubkeysValid

/-- The model's invariant (log entry 3 for the form of memory; R86, R231, R233 for the rest): every step keeps the memory canonical and inside BUF, ERR a legal code, and DONE and ERR clear while
a command is in progress. -/
def Obligations.EveryStepKeepsSoundness : Prop :=
  ∀ s t : State, s.Sound → step s = .next t → t.Sound
end

