-- ==== Sys2Proof/Laws/State.lean ====
section
/-! SUPPORT. Beside State: one lemma for each field and each named update, so that no proof unfolds a record update, and
the same for a context and for one byte of BUF. -/

namespace Sys2Proof.Machine

/-! ### Contexts -/

@[simp] theorem ctx_setCtx_same (s : State) (c : Ctx) (k : KeyContext) : (s.setCtx c k).ctx c = k := by
  cases c <;> rfl

theorem ctx_setCtx_other (s : State) {c d : Ctx} (k : KeyContext) (h : c ≠ d) : (s.setCtx c k).ctx d = s.ctx d := by
  cases c <;> cases d <;> first | rfl | exact absurd rfl h

@[simp] theorem setCtx_ctx (s : State) (c : Ctx) : s.setCtx c (s.ctx c) = s := by cases c <;> rfl

@[simp] theorem setCtx_setCtx (s : State) (c : Ctx) (k l : KeyContext) : (s.setCtx c k).setCtx c l = s.setCtx c l := by
  cases c <;> rfl

theorem legacyReset_new (c : Ctx) (s : State) (h : s.gen = .new) : legacyReset c s = s := by
  cases c <;> simp [legacyReset, h]

@[simp] theorem legacyReset_explicit (s : State) : legacyReset .explicit s = s := rfl

theorem legacyReset_session (s : State) (h : s.gen = .legacy) :
    legacyReset .session s = setIv .session (Bytes.zero 16) s := by simp [legacyReset, h]

/-- What the legacy reset can do (R196): nothing, or zero IV[1]. -/
theorem legacyReset_cases (c : Ctx) (s : State) :
    legacyReset c s = s ∨
      (c = .session ∧ s.gen = .legacy ∧ legacyReset c s = setIv .session (Bytes.zero 16) s) := by
  cases c
  · exact .inl rfl
  · rcases h : s.gen with _ | _
    · exact .inr ⟨rfl, rfl, legacyReset_session s h⟩
    · exact .inl (legacyReset_new _ s h)

@[simp] theorem ctx_memWrite (s : State) (a : Nat) (l : List Byte) (c : Ctx) : (memWrite s a l).ctx c = s.ctx c := rfl
@[simp] theorem ctx_acceptCommand (v : Word) (s : State) (c : Ctx) : (acceptCommand v s).ctx c = s.ctx c := rfl
@[simp] theorem ctx_endCommand (e : ErrCode) (s : State) (c : Ctx) : (endCommand e s).ctx c = s.ctx c := rfl
@[simp] theorem ctx_complete (s : State) (c : Ctx) : (complete s).ctx c = s.ctx c := rfl
@[simp] theorem ctx_raiseError (e : ErrCode) (s : State) (c : Ctx) : (raiseError e s).ctx c = s.ctx c := rfl
@[simp] theorem ctx_setCrc (r : Word) (s : State) (c : Ctx) : (setCrc r s).ctx c = s.ctx c := rfl
@[simp] theorem ctx_clearFlags (v : Word) (s : State) (c : Ctx) : (clearFlags v s).ctx c = s.ctx c := rfl
@[simp] theorem ctx_setOverrun (s : State) (c : Ctx) : (setOverrun s).ctx c = s.ctx c := rfl
@[simp] theorem ctx_answer (r : Response) (d : Option Word) (s : State) (c : Ctx) : (answer r d s).ctx c = s.ctx c := rfl
@[simp] theorem ctx_resetBlock (s : State) (c : Ctx) : (resetBlock s).ctx c = KeyContext.reset := by cases c <;> rfl
@[simp] theorem ctx_setIv_same (c : Ctx) (v : Bytes 16) (s : State) : (setIv c v s).ctx c = { s.ctx c with iv := v } :=
  ctx_setCtx_same s c _
@[simp] theorem ctx_setIvFirst_same {n : Nat} (c : Ctx) (v : Bytes n) (s : State) :
    (setIvFirst c v s).ctx c = { s.ctx c with iv := replaceFirst v (s.ctx c).iv } := ctx_setIv_same c _ s
@[simp] theorem ctx_setSubkeys_same (c : Ctx) (a b : Bytes 16) (s : State) :
    (setSubkeys c a b s).ctx c = { s.ctx c with k1 := a, k2 := b, skvalid := true } := ctx_setCtx_same s c _

/-! ### One byte of BUF -/

@[simp] theorem bufByte_setCtx (s : State) (c : Ctx) (k : KeyContext) (x : Nat) :
    bufByte (s.setCtx c k) x = bufByte s x := by cases c <;> rfl
@[simp] theorem bufByte_setIv (c : Ctx) (v : Bytes 16) (s : State) (x : Nat) : bufByte (setIv c v s) x = bufByte s x :=
  bufByte_setCtx _ c _ x
@[simp] theorem bufByte_setIvFirst {n : Nat} (c : Ctx) (v : Bytes n) (s : State) (x : Nat) :
    bufByte (setIvFirst c v s) x = bufByte s x := bufByte_setIv c _ s x
@[simp] theorem bufByte_setSubkeys (c : Ctx) (a b : Bytes 16) (s : State) (x : Nat) :
    bufByte (setSubkeys c a b s) x = bufByte s x := bufByte_setCtx _ c _ x
@[simp] theorem bufByte_legacyReset (c : Ctx) (s : State) (x : Nat) : bufByte (legacyReset c s) x = bufByte s x := by
  rcases legacyReset_cases c s with h | ⟨_, _, h⟩ <;> simp only [h, bufByte_setIv]
@[simp] theorem bufByte_acceptCommand (v : Word) (s : State) (x : Nat) :
    bufByte (acceptCommand v s) x = bufByte s x := rfl
@[simp] theorem bufByte_endCommand (e : ErrCode) (s : State) (x : Nat) : bufByte (endCommand e s) x = bufByte s x := rfl
@[simp] theorem bufByte_complete (s : State) (x : Nat) : bufByte (complete s) x = bufByte s x := rfl
@[simp] theorem bufByte_raiseError (e : ErrCode) (s : State) (x : Nat) : bufByte (raiseError e s) x = bufByte s x := rfl
@[simp] theorem bufByte_setCrc (r : Word) (s : State) (x : Nat) : bufByte (setCrc r s) x = bufByte s x := rfl
@[simp] theorem bufByte_clearFlags (v : Word) (s : State) (x : Nat) : bufByte (clearFlags v s) x = bufByte s x := rfl
@[simp] theorem bufByte_setOverrun (s : State) (x : Nat) : bufByte (setOverrun s) x = bufByte s x := rfl
@[simp] theorem bufByte_answer (r : Response) (d : Option Word) (s : State) (x : Nat) :
    bufByte (answer r d s) x = bufByte s x := rfl
/-- After a reset every byte of BUF is free (R48). -/
theorem bufByte_resetBlock (s : State) (x : Nat) : bufByte (resetBlock s) x = Config.freeByte (s.epoch + 1) x := rfl

/-! ### Fields -/

@[simp] theorem memWrite_params (s : State) (a : Nat) (l : List Byte) : (memWrite s a l).params = s.params := rfl
@[simp] theorem memWrite_ie (s : State) (a : Nat) (l : List Byte) : (memWrite s a l).ie = s.ie := rfl
@[simp] theorem memWrite_gen (s : State) (a : Nat) (l : List Byte) : (memWrite s a l).gen = s.gen := rfl
@[simp] theorem memWrite_busy (s : State) (a : Nat) (l : List Byte) : (memWrite s a l).busy = s.busy := rfl
@[simp] theorem memWrite_done (s : State) (a : Nat) (l : List Byte) : (memWrite s a l).done = s.done := rfl
@[simp] theorem memWrite_cz (s : State) (a : Nat) (l : List Byte) : (memWrite s a l).cz = s.cz := rfl
@[simp] theorem memWrite_ovr (s : State) (a : Nat) (l : List Byte) : (memWrite s a l).ovr = s.ovr := rfl
@[simp] theorem memWrite_err (s : State) (a : Nat) (l : List Byte) : (memWrite s a l).err = s.err := rfl
@[simp] theorem memWrite_off (s : State) (a : Nat) (l : List Byte) : (memWrite s a l).off = s.off := rfl
@[simp] theorem memWrite_len (s : State) (a : Nat) (l : List Byte) : (memWrite s a l).len = s.len := rfl
@[simp] theorem memWrite_crcr (s : State) (a : Nat) (l : List Byte) : (memWrite s a l).crcr = s.crcr := rfl
@[simp] theorem memWrite_pend (s : State) (a : Nat) (l : List Byte) : (memWrite s a l).pend = s.pend := rfl
@[simp] theorem memWrite_ctx0 (s : State) (a : Nat) (l : List Byte) : (memWrite s a l).ctx0 = s.ctx0 := rfl
@[simp] theorem memWrite_ctx1 (s : State) (a : Nat) (l : List Byte) : (memWrite s a l).ctx1 = s.ctx1 := rfl
@[simp] theorem memWrite_buf (s : State) (a : Nat) (l : List Byte) : (memWrite s a l).buf = memStoreAll s.buf a l :=
  rfl
@[simp] theorem memWrite_epoch (s : State) (a : Nat) (l : List Byte) : (memWrite s a l).epoch = s.epoch := rfl
@[simp] theorem memWrite_draws (s : State) (a : Nat) (l : List Byte) : (memWrite s a l).draws = s.draws := rfl
@[simp] theorem memWrite_script (s : State) (a : Nat) (l : List Byte) : (memWrite s a l).script = s.script := rfl
@[simp] theorem memWrite_reply (s : State) (a : Nat) (l : List Byte) : (memWrite s a l).reply = s.reply := rfl
@[simp] theorem memWrite_hostFault (s : State) (a : Nat) (l : List Byte) : (memWrite s a l).hostFault = s.hostFault :=
  rfl

@[simp] theorem setCtx_params (s : State) (c : Ctx) (k : KeyContext) : (s.setCtx c k).params = s.params :=
  by cases c <;> rfl
@[simp] theorem setCtx_ie (s : State) (c : Ctx) (k : KeyContext) : (s.setCtx c k).ie = s.ie := by cases c <;> rfl
@[simp] theorem setCtx_gen (s : State) (c : Ctx) (k : KeyContext) : (s.setCtx c k).gen = s.gen := by cases c <;> rfl
@[simp] theorem setCtx_busy (s : State) (c : Ctx) (k : KeyContext) : (s.setCtx c k).busy = s.busy := by cases c <;> rfl
@[simp] theorem setCtx_done (s : State) (c : Ctx) (k : KeyContext) : (s.setCtx c k).done = s.done := by cases c <;> rfl
@[simp] theorem setCtx_cz (s : State) (c : Ctx) (k : KeyContext) : (s.setCtx c k).cz = s.cz := by cases c <;> rfl
@[simp] theorem setCtx_ovr (s : State) (c : Ctx) (k : KeyContext) : (s.setCtx c k).ovr = s.ovr := by cases c <;> rfl
@[simp] theorem setCtx_err (s : State) (c : Ctx) (k : KeyContext) : (s.setCtx c k).err = s.err := by cases c <;> rfl
@[simp] theorem setCtx_off (s : State) (c : Ctx) (k : KeyContext) : (s.setCtx c k).off = s.off := by cases c <;> rfl
@[simp] theorem setCtx_len (s : State) (c : Ctx) (k : KeyContext) : (s.setCtx c k).len = s.len := by cases c <;> rfl
@[simp] theorem setCtx_crcr (s : State) (c : Ctx) (k : KeyContext) : (s.setCtx c k).crcr = s.crcr := by cases c <;> rfl
@[simp] theorem setCtx_pend (s : State) (c : Ctx) (k : KeyContext) : (s.setCtx c k).pend = s.pend := by cases c <;> rfl
@[simp] theorem setCtx_buf (s : State) (c : Ctx) (k : KeyContext) : (s.setCtx c k).buf = s.buf := by cases c <;> rfl
@[simp] theorem setCtx_epoch (s : State) (c : Ctx) (k : KeyContext) : (s.setCtx c k).epoch = s.epoch :=
  by cases c <;> rfl
@[simp] theorem setCtx_draws (s : State) (c : Ctx) (k : KeyContext) : (s.setCtx c k).draws = s.draws :=
  by cases c <;> rfl
@[simp] theorem setCtx_script (s : State) (c : Ctx) (k : KeyContext) : (s.setCtx c k).script = s.script :=
  by cases c <;> rfl
@[simp] theorem setCtx_reply (s : State) (c : Ctx) (k : KeyContext) : (s.setCtx c k).reply = s.reply :=
  by cases c <;> rfl
@[simp] theorem setCtx_hostFault (s : State) (c : Ctx) (k : KeyContext) : (s.setCtx c k).hostFault = s.hostFault :=
  by cases c <;> rfl

@[simp] theorem setIv_params (c : Ctx) (v : Bytes 16) (s : State) : (setIv c v s).params = s.params :=
  setCtx_params _ c _
@[simp] theorem setIv_ie (c : Ctx) (v : Bytes 16) (s : State) : (setIv c v s).ie = s.ie := setCtx_ie _ c _
@[simp] theorem setIv_gen (c : Ctx) (v : Bytes 16) (s : State) : (setIv c v s).gen = s.gen := setCtx_gen _ c _
@[simp] theorem setIv_busy (c : Ctx) (v : Bytes 16) (s : State) : (setIv c v s).busy = s.busy := setCtx_busy _ c _
@[simp] theorem setIv_done (c : Ctx) (v : Bytes 16) (s : State) : (setIv c v s).done = s.done := setCtx_done _ c _
@[simp] theorem setIv_cz (c : Ctx) (v : Bytes 16) (s : State) : (setIv c v s).cz = s.cz := setCtx_cz _ c _
@[simp] theorem setIv_ovr (c : Ctx) (v : Bytes 16) (s : State) : (setIv c v s).ovr = s.ovr := setCtx_ovr _ c _
@[simp] theorem setIv_err (c : Ctx) (v : Bytes 16) (s : State) : (setIv c v s).err = s.err := setCtx_err _ c _
@[simp] theorem setIv_off (c : Ctx) (v : Bytes 16) (s : State) : (setIv c v s).off = s.off := setCtx_off _ c _
@[simp] theorem setIv_len (c : Ctx) (v : Bytes 16) (s : State) : (setIv c v s).len = s.len := setCtx_len _ c _
@[simp] theorem setIv_crcr (c : Ctx) (v : Bytes 16) (s : State) : (setIv c v s).crcr = s.crcr := setCtx_crcr _ c _
@[simp] theorem setIv_pend (c : Ctx) (v : Bytes 16) (s : State) : (setIv c v s).pend = s.pend := setCtx_pend _ c _
@[simp] theorem setIv_buf (c : Ctx) (v : Bytes 16) (s : State) : (setIv c v s).buf = s.buf := setCtx_buf _ c _
@[simp] theorem setIv_epoch (c : Ctx) (v : Bytes 16) (s : State) : (setIv c v s).epoch = s.epoch := setCtx_epoch _ c _
@[simp] theorem setIv_draws (c : Ctx) (v : Bytes 16) (s : State) : (setIv c v s).draws = s.draws := setCtx_draws _ c _
@[simp] theorem setIv_script (c : Ctx) (v : Bytes 16) (s : State) : (setIv c v s).script = s.script :=
  setCtx_script _ c _
@[simp] theorem setIv_reply (c : Ctx) (v : Bytes 16) (s : State) : (setIv c v s).reply = s.reply := setCtx_reply _ c _
@[simp] theorem setIv_hostFault (c : Ctx) (v : Bytes 16) (s : State) : (setIv c v s).hostFault = s.hostFault :=
  setCtx_hostFault _ c _

@[simp] theorem setIvFirst_params {n : Nat} (c : Ctx) (v : Bytes n) (s : State) : (setIvFirst c v s).params = s.params :=
  setIv_params c _ s
@[simp] theorem setIvFirst_ie {n : Nat} (c : Ctx) (v : Bytes n) (s : State) : (setIvFirst c v s).ie = s.ie :=
  setIv_ie c _ s
@[simp] theorem setIvFirst_gen {n : Nat} (c : Ctx) (v : Bytes n) (s : State) : (setIvFirst c v s).gen = s.gen :=
  setIv_gen c _ s
@[simp] theorem setIvFirst_busy {n : Nat} (c : Ctx) (v : Bytes n) (s : State) : (setIvFirst c v s).busy = s.busy :=
  setIv_busy c _ s
@[simp] theorem setIvFirst_done {n : Nat} (c : Ctx) (v : Bytes n) (s : State) : (setIvFirst c v s).done = s.done :=
  setIv_done c _ s
@[simp] theorem setIvFirst_cz {n : Nat} (c : Ctx) (v : Bytes n) (s : State) : (setIvFirst c v s).cz = s.cz :=
  setIv_cz c _ s
@[simp] theorem setIvFirst_ovr {n : Nat} (c : Ctx) (v : Bytes n) (s : State) : (setIvFirst c v s).ovr = s.ovr :=
  setIv_ovr c _ s
@[simp] theorem setIvFirst_err {n : Nat} (c : Ctx) (v : Bytes n) (s : State) : (setIvFirst c v s).err = s.err :=
  setIv_err c _ s
@[simp] theorem setIvFirst_off {n : Nat} (c : Ctx) (v : Bytes n) (s : State) : (setIvFirst c v s).off = s.off :=
  setIv_off c _ s
@[simp] theorem setIvFirst_len {n : Nat} (c : Ctx) (v : Bytes n) (s : State) : (setIvFirst c v s).len = s.len :=
  setIv_len c _ s
@[simp] theorem setIvFirst_crcr {n : Nat} (c : Ctx) (v : Bytes n) (s : State) : (setIvFirst c v s).crcr = s.crcr :=
  setIv_crcr c _ s
@[simp] theorem setIvFirst_pend {n : Nat} (c : Ctx) (v : Bytes n) (s : State) : (setIvFirst c v s).pend = s.pend :=
  setIv_pend c _ s
@[simp] theorem setIvFirst_buf {n : Nat} (c : Ctx) (v : Bytes n) (s : State) : (setIvFirst c v s).buf = s.buf :=
  setIv_buf c _ s
@[simp] theorem setIvFirst_epoch {n : Nat} (c : Ctx) (v : Bytes n) (s : State) : (setIvFirst c v s).epoch = s.epoch :=
  setIv_epoch c _ s
@[simp] theorem setIvFirst_draws {n : Nat} (c : Ctx) (v : Bytes n) (s : State) : (setIvFirst c v s).draws = s.draws :=
  setIv_draws c _ s
@[simp] theorem setIvFirst_script {n : Nat} (c : Ctx) (v : Bytes n) (s : State) : (setIvFirst c v s).script = s.script :=
  setIv_script c _ s
@[simp] theorem setIvFirst_reply {n : Nat} (c : Ctx) (v : Bytes n) (s : State) : (setIvFirst c v s).reply = s.reply :=
  setIv_reply c _ s
@[simp] theorem setIvFirst_hostFault {n : Nat} (c : Ctx) (v : Bytes n) (s : State) : (setIvFirst c v s).hostFault = s.hostFault :=
  setIv_hostFault c _ s

@[simp] theorem setSubkeys_params (c : Ctx) (a b : Bytes 16) (s : State) : (setSubkeys c a b s).params = s.params :=
  setCtx_params _ c _
@[simp] theorem setSubkeys_ie (c : Ctx) (a b : Bytes 16) (s : State) : (setSubkeys c a b s).ie = s.ie :=
  setCtx_ie _ c _
@[simp] theorem setSubkeys_gen (c : Ctx) (a b : Bytes 16) (s : State) : (setSubkeys c a b s).gen = s.gen :=
  setCtx_gen _ c _
@[simp] theorem setSubkeys_busy (c : Ctx) (a b : Bytes 16) (s : State) : (setSubkeys c a b s).busy = s.busy :=
  setCtx_busy _ c _
@[simp] theorem setSubkeys_done (c : Ctx) (a b : Bytes 16) (s : State) : (setSubkeys c a b s).done = s.done :=
  setCtx_done _ c _
@[simp] theorem setSubkeys_cz (c : Ctx) (a b : Bytes 16) (s : State) : (setSubkeys c a b s).cz = s.cz :=
  setCtx_cz _ c _
@[simp] theorem setSubkeys_ovr (c : Ctx) (a b : Bytes 16) (s : State) : (setSubkeys c a b s).ovr = s.ovr :=
  setCtx_ovr _ c _
@[simp] theorem setSubkeys_err (c : Ctx) (a b : Bytes 16) (s : State) : (setSubkeys c a b s).err = s.err :=
  setCtx_err _ c _
@[simp] theorem setSubkeys_off (c : Ctx) (a b : Bytes 16) (s : State) : (setSubkeys c a b s).off = s.off :=
  setCtx_off _ c _
@[simp] theorem setSubkeys_len (c : Ctx) (a b : Bytes 16) (s : State) : (setSubkeys c a b s).len = s.len :=
  setCtx_len _ c _
@[simp] theorem setSubkeys_crcr (c : Ctx) (a b : Bytes 16) (s : State) : (setSubkeys c a b s).crcr = s.crcr :=
  setCtx_crcr _ c _
@[simp] theorem setSubkeys_pend (c : Ctx) (a b : Bytes 16) (s : State) : (setSubkeys c a b s).pend = s.pend :=
  setCtx_pend _ c _
@[simp] theorem setSubkeys_buf (c : Ctx) (a b : Bytes 16) (s : State) : (setSubkeys c a b s).buf = s.buf :=
  setCtx_buf _ c _
@[simp] theorem setSubkeys_epoch (c : Ctx) (a b : Bytes 16) (s : State) : (setSubkeys c a b s).epoch = s.epoch :=
  setCtx_epoch _ c _
@[simp] theorem setSubkeys_draws (c : Ctx) (a b : Bytes 16) (s : State) : (setSubkeys c a b s).draws = s.draws :=
  setCtx_draws _ c _
@[simp] theorem setSubkeys_script (c : Ctx) (a b : Bytes 16) (s : State) : (setSubkeys c a b s).script = s.script :=
  setCtx_script _ c _
@[simp] theorem setSubkeys_reply (c : Ctx) (a b : Bytes 16) (s : State) : (setSubkeys c a b s).reply = s.reply :=
  setCtx_reply _ c _
@[simp] theorem setSubkeys_hostFault (c : Ctx) (a b : Bytes 16) (s : State) : (setSubkeys c a b s).hostFault = s.hostFault :=
  setCtx_hostFault _ c _

@[simp] theorem legacyReset_params (c : Ctx) (s : State) : (legacyReset c s).params = s.params := by
  rcases legacyReset_cases c s with h | ⟨_, _, h⟩ <;> simp only [h, setIv_params]
@[simp] theorem legacyReset_ie (c : Ctx) (s : State) : (legacyReset c s).ie = s.ie := by
  rcases legacyReset_cases c s with h | ⟨_, _, h⟩ <;> simp only [h, setIv_ie]
@[simp] theorem legacyReset_gen (c : Ctx) (s : State) : (legacyReset c s).gen = s.gen := by
  rcases legacyReset_cases c s with h | ⟨_, _, h⟩ <;> simp only [h, setIv_gen]
@[simp] theorem legacyReset_busy (c : Ctx) (s : State) : (legacyReset c s).busy = s.busy := by
  rcases legacyReset_cases c s with h | ⟨_, _, h⟩ <;> simp only [h, setIv_busy]
@[simp] theorem legacyReset_done (c : Ctx) (s : State) : (legacyReset c s).done = s.done := by
  rcases legacyReset_cases c s with h | ⟨_, _, h⟩ <;> simp only [h, setIv_done]
@[simp] theorem legacyReset_cz (c : Ctx) (s : State) : (legacyReset c s).cz = s.cz := by
  rcases legacyReset_cases c s with h | ⟨_, _, h⟩ <;> simp only [h, setIv_cz]
@[simp] theorem legacyReset_ovr (c : Ctx) (s : State) : (legacyReset c s).ovr = s.ovr := by
  rcases legacyReset_cases c s with h | ⟨_, _, h⟩ <;> simp only [h, setIv_ovr]
@[simp] theorem legacyReset_err (c : Ctx) (s : State) : (legacyReset c s).err = s.err := by
  rcases legacyReset_cases c s with h | ⟨_, _, h⟩ <;> simp only [h, setIv_err]
@[simp] theorem legacyReset_off (c : Ctx) (s : State) : (legacyReset c s).off = s.off := by
  rcases legacyReset_cases c s with h | ⟨_, _, h⟩ <;> simp only [h, setIv_off]
@[simp] theorem legacyReset_len (c : Ctx) (s : State) : (legacyReset c s).len = s.len := by
  rcases legacyReset_cases c s with h | ⟨_, _, h⟩ <;> simp only [h, setIv_len]
@[simp] theorem legacyReset_crcr (c : Ctx) (s : State) : (legacyReset c s).crcr = s.crcr := by
  rcases legacyReset_cases c s with h | ⟨_, _, h⟩ <;> simp only [h, setIv_crcr]
@[simp] theorem legacyReset_pend (c : Ctx) (s : State) : (legacyReset c s).pend = s.pend := by
  rcases legacyReset_cases c s with h | ⟨_, _, h⟩ <;> simp only [h, setIv_pend]
@[simp] theorem legacyReset_buf (c : Ctx) (s : State) : (legacyReset c s).buf = s.buf := by
  rcases legacyReset_cases c s with h | ⟨_, _, h⟩ <;> simp only [h, setIv_buf]
@[simp] theorem legacyReset_epoch (c : Ctx) (s : State) : (legacyReset c s).epoch = s.epoch := by
  rcases legacyReset_cases c s with h | ⟨_, _, h⟩ <;> simp only [h, setIv_epoch]
@[simp] theorem legacyReset_draws (c : Ctx) (s : State) : (legacyReset c s).draws = s.draws := by
  rcases legacyReset_cases c s with h | ⟨_, _, h⟩ <;> simp only [h, setIv_draws]
@[simp] theorem legacyReset_script (c : Ctx) (s : State) : (legacyReset c s).script = s.script := by
  rcases legacyReset_cases c s with h | ⟨_, _, h⟩ <;> simp only [h, setIv_script]
@[simp] theorem legacyReset_reply (c : Ctx) (s : State) : (legacyReset c s).reply = s.reply := by
  rcases legacyReset_cases c s with h | ⟨_, _, h⟩ <;> simp only [h, setIv_reply]
@[simp] theorem legacyReset_hostFault (c : Ctx) (s : State) : (legacyReset c s).hostFault = s.hostFault := by
  rcases legacyReset_cases c s with h | ⟨_, _, h⟩ <;> simp only [h, setIv_hostFault]

@[simp] theorem acceptCommand_params (v : Word) (s : State) : (acceptCommand v s).params = s.params := rfl
@[simp] theorem acceptCommand_ie (v : Word) (s : State) : (acceptCommand v s).ie = s.ie := rfl
@[simp] theorem acceptCommand_gen (v : Word) (s : State) : (acceptCommand v s).gen = s.gen := rfl
@[simp] theorem acceptCommand_busy (v : Word) (s : State) : (acceptCommand v s).busy = true := rfl
@[simp] theorem acceptCommand_done (v : Word) (s : State) : (acceptCommand v s).done = false := rfl
@[simp] theorem acceptCommand_cz (v : Word) (s : State) : (acceptCommand v s).cz = s.cz := rfl
@[simp] theorem acceptCommand_ovr (v : Word) (s : State) : (acceptCommand v s).ovr = s.ovr := rfl
@[simp] theorem acceptCommand_err (v : Word) (s : State) : (acceptCommand v s).err = 0 := rfl
@[simp] theorem acceptCommand_off (v : Word) (s : State) : (acceptCommand v s).off = s.off := rfl
@[simp] theorem acceptCommand_len (v : Word) (s : State) : (acceptCommand v s).len = s.len := rfl
@[simp] theorem acceptCommand_crcr (v : Word) (s : State) : (acceptCommand v s).crcr = s.crcr := rfl
@[simp] theorem acceptCommand_pend (v : Word) (s : State) : (acceptCommand v s).pend = v := rfl
@[simp] theorem acceptCommand_ctx0 (v : Word) (s : State) : (acceptCommand v s).ctx0 = s.ctx0 := rfl
@[simp] theorem acceptCommand_ctx1 (v : Word) (s : State) : (acceptCommand v s).ctx1 = s.ctx1 := rfl
@[simp] theorem acceptCommand_buf (v : Word) (s : State) : (acceptCommand v s).buf = s.buf := rfl
@[simp] theorem acceptCommand_epoch (v : Word) (s : State) : (acceptCommand v s).epoch = s.epoch := rfl
@[simp] theorem acceptCommand_draws (v : Word) (s : State) : (acceptCommand v s).draws = s.draws := rfl
@[simp] theorem acceptCommand_script (v : Word) (s : State) : (acceptCommand v s).script = s.script := rfl
@[simp] theorem acceptCommand_reply (v : Word) (s : State) : (acceptCommand v s).reply = s.reply := rfl
@[simp] theorem acceptCommand_hostFault (v : Word) (s : State) : (acceptCommand v s).hostFault = s.hostFault := rfl

@[simp] theorem endCommand_params (e : ErrCode) (s : State) : (endCommand e s).params = s.params := rfl
@[simp] theorem endCommand_ie (e : ErrCode) (s : State) : (endCommand e s).ie = s.ie := rfl
@[simp] theorem endCommand_gen (e : ErrCode) (s : State) : (endCommand e s).gen = s.gen := rfl
@[simp] theorem endCommand_busy (e : ErrCode) (s : State) : (endCommand e s).busy = false := rfl
@[simp] theorem endCommand_done (e : ErrCode) (s : State) : (endCommand e s).done = true := rfl
@[simp] theorem endCommand_cz (e : ErrCode) (s : State) : (endCommand e s).cz = s.cz := rfl
@[simp] theorem endCommand_ovr (e : ErrCode) (s : State) : (endCommand e s).ovr = s.ovr := rfl
@[simp] theorem endCommand_err (e : ErrCode) (s : State) : (endCommand e s).err = errValue e := rfl
@[simp] theorem endCommand_off (e : ErrCode) (s : State) : (endCommand e s).off = s.off := rfl
@[simp] theorem endCommand_len (e : ErrCode) (s : State) : (endCommand e s).len = s.len := rfl
@[simp] theorem endCommand_crcr (e : ErrCode) (s : State) : (endCommand e s).crcr = s.crcr := rfl
@[simp] theorem endCommand_pend (e : ErrCode) (s : State) : (endCommand e s).pend = s.pend := rfl
@[simp] theorem endCommand_ctx0 (e : ErrCode) (s : State) : (endCommand e s).ctx0 = s.ctx0 := rfl
@[simp] theorem endCommand_ctx1 (e : ErrCode) (s : State) : (endCommand e s).ctx1 = s.ctx1 := rfl
@[simp] theorem endCommand_buf (e : ErrCode) (s : State) : (endCommand e s).buf = s.buf := rfl
@[simp] theorem endCommand_epoch (e : ErrCode) (s : State) : (endCommand e s).epoch = s.epoch := rfl
@[simp] theorem endCommand_draws (e : ErrCode) (s : State) : (endCommand e s).draws = s.draws := rfl
@[simp] theorem endCommand_script (e : ErrCode) (s : State) : (endCommand e s).script = s.script := rfl
@[simp] theorem endCommand_reply (e : ErrCode) (s : State) : (endCommand e s).reply = s.reply := rfl
@[simp] theorem endCommand_hostFault (e : ErrCode) (s : State) : (endCommand e s).hostFault = s.hostFault := rfl

@[simp] theorem complete_params (s : State) : (complete s).params = s.params := rfl
@[simp] theorem complete_ie (s : State) : (complete s).ie = s.ie := rfl
@[simp] theorem complete_gen (s : State) : (complete s).gen = s.gen := rfl
@[simp] theorem complete_busy (s : State) : (complete s).busy = false := rfl
@[simp] theorem complete_done (s : State) : (complete s).done = true := rfl
@[simp] theorem complete_cz (s : State) : (complete s).cz = s.cz := rfl
@[simp] theorem complete_ovr (s : State) : (complete s).ovr = s.ovr := rfl
@[simp] theorem complete_err (s : State) : (complete s).err = 0 := rfl
@[simp] theorem complete_off (s : State) : (complete s).off = s.off := rfl
@[simp] theorem complete_len (s : State) : (complete s).len = s.len := rfl
@[simp] theorem complete_crcr (s : State) : (complete s).crcr = s.crcr := rfl
@[simp] theorem complete_pend (s : State) : (complete s).pend = s.pend := rfl
@[simp] theorem complete_ctx0 (s : State) : (complete s).ctx0 = s.ctx0 := rfl
@[simp] theorem complete_ctx1 (s : State) : (complete s).ctx1 = s.ctx1 := rfl
@[simp] theorem complete_buf (s : State) : (complete s).buf = s.buf := rfl
@[simp] theorem complete_epoch (s : State) : (complete s).epoch = s.epoch := rfl
@[simp] theorem complete_draws (s : State) : (complete s).draws = s.draws := rfl
@[simp] theorem complete_script (s : State) : (complete s).script = s.script := rfl
@[simp] theorem complete_reply (s : State) : (complete s).reply = s.reply := rfl
@[simp] theorem complete_hostFault (s : State) : (complete s).hostFault = s.hostFault := rfl

@[simp] theorem raiseError_params (e : ErrCode) (s : State) : (raiseError e s).params = s.params := rfl
@[simp] theorem raiseError_ie (e : ErrCode) (s : State) : (raiseError e s).ie = s.ie := rfl
@[simp] theorem raiseError_gen (e : ErrCode) (s : State) : (raiseError e s).gen = s.gen := rfl
@[simp] theorem raiseError_busy (e : ErrCode) (s : State) : (raiseError e s).busy = false := rfl
@[simp] theorem raiseError_done (e : ErrCode) (s : State) : (raiseError e s).done = true := rfl
@[simp] theorem raiseError_cz (e : ErrCode) (s : State) : (raiseError e s).cz = s.cz := rfl
@[simp] theorem raiseError_ovr (e : ErrCode) (s : State) : (raiseError e s).ovr = s.ovr := rfl
@[simp] theorem raiseError_err (e : ErrCode) (s : State) : (raiseError e s).err = errValue e := rfl
@[simp] theorem raiseError_off (e : ErrCode) (s : State) : (raiseError e s).off = s.off := rfl
@[simp] theorem raiseError_len (e : ErrCode) (s : State) : (raiseError e s).len = s.len := rfl
@[simp] theorem raiseError_crcr (e : ErrCode) (s : State) : (raiseError e s).crcr = s.crcr := rfl
@[simp] theorem raiseError_pend (e : ErrCode) (s : State) : (raiseError e s).pend = s.pend := rfl
@[simp] theorem raiseError_ctx0 (e : ErrCode) (s : State) : (raiseError e s).ctx0 = s.ctx0 := rfl
@[simp] theorem raiseError_ctx1 (e : ErrCode) (s : State) : (raiseError e s).ctx1 = s.ctx1 := rfl
@[simp] theorem raiseError_buf (e : ErrCode) (s : State) : (raiseError e s).buf = s.buf := rfl
@[simp] theorem raiseError_epoch (e : ErrCode) (s : State) : (raiseError e s).epoch = s.epoch := rfl
@[simp] theorem raiseError_draws (e : ErrCode) (s : State) : (raiseError e s).draws = s.draws := rfl
@[simp] theorem raiseError_script (e : ErrCode) (s : State) : (raiseError e s).script = s.script := rfl
@[simp] theorem raiseError_reply (e : ErrCode) (s : State) : (raiseError e s).reply = s.reply := rfl
@[simp] theorem raiseError_hostFault (e : ErrCode) (s : State) : (raiseError e s).hostFault = s.hostFault := rfl

@[simp] theorem setCrc_params (r : Word) (s : State) : (setCrc r s).params = s.params := rfl
@[simp] theorem setCrc_ie (r : Word) (s : State) : (setCrc r s).ie = s.ie := rfl
@[simp] theorem setCrc_gen (r : Word) (s : State) : (setCrc r s).gen = s.gen := rfl
@[simp] theorem setCrc_busy (r : Word) (s : State) : (setCrc r s).busy = s.busy := rfl
@[simp] theorem setCrc_done (r : Word) (s : State) : (setCrc r s).done = s.done := rfl
@[simp] theorem setCrc_cz (r : Word) (s : State) : (setCrc r s).cz = decide (r = 0) := rfl
@[simp] theorem setCrc_ovr (r : Word) (s : State) : (setCrc r s).ovr = s.ovr := rfl
@[simp] theorem setCrc_err (r : Word) (s : State) : (setCrc r s).err = s.err := rfl
@[simp] theorem setCrc_off (r : Word) (s : State) : (setCrc r s).off = s.off := rfl
@[simp] theorem setCrc_len (r : Word) (s : State) : (setCrc r s).len = s.len := rfl
@[simp] theorem setCrc_crcr (r : Word) (s : State) : (setCrc r s).crcr = r := rfl
@[simp] theorem setCrc_pend (r : Word) (s : State) : (setCrc r s).pend = s.pend := rfl
@[simp] theorem setCrc_ctx0 (r : Word) (s : State) : (setCrc r s).ctx0 = s.ctx0 := rfl
@[simp] theorem setCrc_ctx1 (r : Word) (s : State) : (setCrc r s).ctx1 = s.ctx1 := rfl
@[simp] theorem setCrc_buf (r : Word) (s : State) : (setCrc r s).buf = s.buf := rfl
@[simp] theorem setCrc_epoch (r : Word) (s : State) : (setCrc r s).epoch = s.epoch := rfl
@[simp] theorem setCrc_draws (r : Word) (s : State) : (setCrc r s).draws = s.draws := rfl
@[simp] theorem setCrc_script (r : Word) (s : State) : (setCrc r s).script = s.script := rfl
@[simp] theorem setCrc_reply (r : Word) (s : State) : (setCrc r s).reply = s.reply := rfl
@[simp] theorem setCrc_hostFault (r : Word) (s : State) : (setCrc r s).hostFault = s.hostFault := rfl

@[simp] theorem clearFlags_params (v : Word) (s : State) : (clearFlags v s).params = s.params := rfl
@[simp] theorem clearFlags_ie (v : Word) (s : State) : (clearFlags v s).ie = s.ie := rfl
@[simp] theorem clearFlags_gen (v : Word) (s : State) : (clearFlags v s).gen = s.gen := rfl
@[simp] theorem clearFlags_busy (v : Word) (s : State) : (clearFlags v s).busy = s.busy := rfl
@[simp] theorem clearFlags_done (v : Word) (s : State) : (clearFlags v s).done = (s.done && !v.getLsbD 1) := rfl
@[simp] theorem clearFlags_cz (v : Word) (s : State) : (clearFlags v s).cz = s.cz := rfl
@[simp] theorem clearFlags_ovr (v : Word) (s : State) : (clearFlags v s).ovr = (s.ovr && !v.getLsbD 3) := rfl
@[simp] theorem clearFlags_err (v : Word) (s : State) : (clearFlags v s).err = s.err := rfl
@[simp] theorem clearFlags_off (v : Word) (s : State) : (clearFlags v s).off = s.off := rfl
@[simp] theorem clearFlags_len (v : Word) (s : State) : (clearFlags v s).len = s.len := rfl
@[simp] theorem clearFlags_crcr (v : Word) (s : State) : (clearFlags v s).crcr = s.crcr := rfl
@[simp] theorem clearFlags_pend (v : Word) (s : State) : (clearFlags v s).pend = s.pend := rfl
@[simp] theorem clearFlags_ctx0 (v : Word) (s : State) : (clearFlags v s).ctx0 = s.ctx0 := rfl
@[simp] theorem clearFlags_ctx1 (v : Word) (s : State) : (clearFlags v s).ctx1 = s.ctx1 := rfl
@[simp] theorem clearFlags_buf (v : Word) (s : State) : (clearFlags v s).buf = s.buf := rfl
@[simp] theorem clearFlags_epoch (v : Word) (s : State) : (clearFlags v s).epoch = s.epoch := rfl
@[simp] theorem clearFlags_draws (v : Word) (s : State) : (clearFlags v s).draws = s.draws := rfl
@[simp] theorem clearFlags_script (v : Word) (s : State) : (clearFlags v s).script = s.script := rfl
@[simp] theorem clearFlags_reply (v : Word) (s : State) : (clearFlags v s).reply = s.reply := rfl
@[simp] theorem clearFlags_hostFault (v : Word) (s : State) : (clearFlags v s).hostFault = s.hostFault := rfl

@[simp] theorem setOverrun_params (s : State) : (setOverrun s).params = s.params := rfl
@[simp] theorem setOverrun_ie (s : State) : (setOverrun s).ie = s.ie := rfl
@[simp] theorem setOverrun_gen (s : State) : (setOverrun s).gen = s.gen := rfl
@[simp] theorem setOverrun_busy (s : State) : (setOverrun s).busy = s.busy := rfl
@[simp] theorem setOverrun_done (s : State) : (setOverrun s).done = s.done := rfl
@[simp] theorem setOverrun_cz (s : State) : (setOverrun s).cz = s.cz := rfl
@[simp] theorem setOverrun_ovr (s : State) : (setOverrun s).ovr = true := rfl
@[simp] theorem setOverrun_err (s : State) : (setOverrun s).err = s.err := rfl
@[simp] theorem setOverrun_off (s : State) : (setOverrun s).off = s.off := rfl
@[simp] theorem setOverrun_len (s : State) : (setOverrun s).len = s.len := rfl
@[simp] theorem setOverrun_crcr (s : State) : (setOverrun s).crcr = s.crcr := rfl
@[simp] theorem setOverrun_pend (s : State) : (setOverrun s).pend = s.pend := rfl
@[simp] theorem setOverrun_ctx0 (s : State) : (setOverrun s).ctx0 = s.ctx0 := rfl
@[simp] theorem setOverrun_ctx1 (s : State) : (setOverrun s).ctx1 = s.ctx1 := rfl
@[simp] theorem setOverrun_buf (s : State) : (setOverrun s).buf = s.buf := rfl
@[simp] theorem setOverrun_epoch (s : State) : (setOverrun s).epoch = s.epoch := rfl
@[simp] theorem setOverrun_draws (s : State) : (setOverrun s).draws = s.draws := rfl
@[simp] theorem setOverrun_script (s : State) : (setOverrun s).script = s.script := rfl
@[simp] theorem setOverrun_reply (s : State) : (setOverrun s).reply = s.reply := rfl
@[simp] theorem setOverrun_hostFault (s : State) : (setOverrun s).hostFault = s.hostFault := rfl

@[simp] theorem answer_params (r : Response) (d : Option Word) (s : State) : (answer r d s).params = s.params := rfl
@[simp] theorem answer_ie (r : Response) (d : Option Word) (s : State) : (answer r d s).ie = s.ie := rfl
@[simp] theorem answer_gen (r : Response) (d : Option Word) (s : State) : (answer r d s).gen = s.gen := rfl
@[simp] theorem answer_busy (r : Response) (d : Option Word) (s : State) : (answer r d s).busy = s.busy := rfl
@[simp] theorem answer_done (r : Response) (d : Option Word) (s : State) : (answer r d s).done = s.done := rfl
@[simp] theorem answer_cz (r : Response) (d : Option Word) (s : State) : (answer r d s).cz = s.cz := rfl
@[simp] theorem answer_ovr (r : Response) (d : Option Word) (s : State) : (answer r d s).ovr = s.ovr := rfl
@[simp] theorem answer_err (r : Response) (d : Option Word) (s : State) : (answer r d s).err = s.err := rfl
@[simp] theorem answer_off (r : Response) (d : Option Word) (s : State) : (answer r d s).off = s.off := rfl
@[simp] theorem answer_len (r : Response) (d : Option Word) (s : State) : (answer r d s).len = s.len := rfl
@[simp] theorem answer_crcr (r : Response) (d : Option Word) (s : State) : (answer r d s).crcr = s.crcr := rfl
@[simp] theorem answer_pend (r : Response) (d : Option Word) (s : State) : (answer r d s).pend = s.pend := rfl
@[simp] theorem answer_ctx0 (r : Response) (d : Option Word) (s : State) : (answer r d s).ctx0 = s.ctx0 := rfl
@[simp] theorem answer_ctx1 (r : Response) (d : Option Word) (s : State) : (answer r d s).ctx1 = s.ctx1 := rfl
@[simp] theorem answer_buf (r : Response) (d : Option Word) (s : State) : (answer r d s).buf = s.buf := rfl
@[simp] theorem answer_epoch (r : Response) (d : Option Word) (s : State) : (answer r d s).epoch = s.epoch := rfl
@[simp] theorem answer_draws (r : Response) (d : Option Word) (s : State) : (answer r d s).draws = s.draws := rfl
@[simp] theorem answer_script (r : Response) (d : Option Word) (s : State) : (answer r d s).script = s.script := rfl
@[simp] theorem answer_reply (r : Response) (d : Option Word) (s : State) : (answer r d s).reply = some ⟨r, d⟩ := rfl
@[simp] theorem answer_hostFault (r : Response) (d : Option Word) (s : State) : (answer r d s).hostFault = s.hostFault :=
  rfl

@[simp] theorem resetBlock_params (s : State) : (resetBlock s).params = s.params := rfl
@[simp] theorem resetBlock_ie (s : State) : (resetBlock s).ie = false := rfl
@[simp] theorem resetBlock_gen (s : State) : (resetBlock s).gen = .legacy := rfl
@[simp] theorem resetBlock_busy (s : State) : (resetBlock s).busy = false := rfl
@[simp] theorem resetBlock_done (s : State) : (resetBlock s).done = false := rfl
@[simp] theorem resetBlock_cz (s : State) : (resetBlock s).cz = false := rfl
@[simp] theorem resetBlock_ovr (s : State) : (resetBlock s).ovr = false := rfl
@[simp] theorem resetBlock_err (s : State) : (resetBlock s).err = 0 := rfl
@[simp] theorem resetBlock_off (s : State) : (resetBlock s).off = 0 := rfl
@[simp] theorem resetBlock_len (s : State) : (resetBlock s).len = 0 := rfl
@[simp] theorem resetBlock_crcr (s : State) : (resetBlock s).crcr = 0 := rfl
@[simp] theorem resetBlock_pend (s : State) : (resetBlock s).pend = 0 := rfl
@[simp] theorem resetBlock_ctx0 (s : State) : (resetBlock s).ctx0 = KeyContext.reset := rfl
@[simp] theorem resetBlock_ctx1 (s : State) : (resetBlock s).ctx1 = KeyContext.reset := rfl
@[simp] theorem resetBlock_buf (s : State) : (resetBlock s).buf = [] := rfl
@[simp] theorem resetBlock_epoch (s : State) : (resetBlock s).epoch = s.epoch + 1 := rfl
@[simp] theorem resetBlock_draws (s : State) : (resetBlock s).draws = s.draws := rfl
@[simp] theorem resetBlock_script (s : State) : (resetBlock s).script = s.script := rfl
@[simp] theorem resetBlock_reply (s : State) : (resetBlock s).reply = s.reply := rfl
@[simp] theorem resetBlock_hostFault (s : State) : (resetBlock s).hostFault = s.hostFault := rfl

end Sys2Proof.Machine
end

