-- ==== Sys2Proof/Laws/Memory.lean ====
section
/-! SUPPORT. BUF: reading after writing, and the canonical form that every memory operation keeps. -/

namespace Sys2Proof.Machine

theorem memLookup_memStore_same (m : Memory) (a : Nat) (b : Byte) : memLookup (memStore m a b) a = some b := by
  induction m with
  | nil => simp [memStore, memLookup]
  | cons e rest ih =>
    obtain ⟨k, v⟩ := e
    simp only [memStore]
    split_ifs with h1 h2
    · simp [memLookup]
    · simp [memLookup]
    · simp [memLookup, Ne.symm h2, ih]

theorem memLookup_memStore_other (m : Memory) {a x : Nat} (b : Byte) (h : x ≠ a) :
    memLookup (memStore m a b) x = memLookup m x := by
  induction m with
  | nil => simp [memStore, memLookup, Ne.symm h]
  | cons e rest ih =>
    obtain ⟨k, v⟩ := e
    simp only [memStore]
    split_ifs with h1 h2
    · simp [memLookup, Ne.symm h]
    · subst h2; simp [memLookup, Ne.symm h]
    · simp [memLookup, ih]

/-- One byte stored, one byte read. -/
theorem memLookup_memStore (m : Memory) (a x : Nat) (b : Byte) :
    memLookup (memStore m a b) x = if x = a then some b else memLookup m x := by
  split_ifs with h
  · subst h; exact memLookup_memStore_same ..
  · exact memLookup_memStore_other m b h

/-- A byte string stored, one byte read: MemWrite of R10. -/
theorem memLookup_memStoreAll (l : List Byte) (m : Memory) (a x : Nat) :
    memLookup (memStoreAll m a l) x = if a ≤ x ∧ x < a + l.length then l[x - a]? else memLookup m x := by
  induction l generalizing m a with
  | nil => simp [memStoreAll]
  | cons b rest ih =>
    rw [memStoreAll, ih, memLookup_memStore]
    by_cases hx : x = a
    · subst hx; simp
    · by_cases h : a + 1 ≤ x ∧ x < a + 1 + rest.length
      · have h' : a ≤ x ∧ x < a + (b :: rest).length := by simp only [List.length_cons]; omega
        rw [if_pos h, if_pos h', show x - a = (x - (a + 1)) + 1 by omega, List.getElem?_cons_succ]
      · have h' : ¬(a ≤ x ∧ x < a + (b :: rest).length) := by simp only [List.length_cons]; omega
        rw [if_neg h, if_neg h', if_neg hx]

/-- MemWrite changes exactly the bytes written: one byte of BUF after `memWrite`. -/
theorem bufByte_memWrite (s : State) (a x : Nat) (l : List Byte) :
    bufByte (memWrite s a l) x = if a ≤ x ∧ x < a + l.length then l.getD (x - a) 0 else bufByte s x := by
  simp only [bufByte, memWrite, memLookup_memStoreAll]
  split_ifs with h
  · rw [List.getElem?_eq_getElem (by omega), List.getD_eq_getElem _ _ (by omega)]; rfl
  · rfl

theorem bufByte_memWrite_outside (s : State) {a x : Nat} {l : List Byte} (h : x < a ∨ a + l.length ≤ x) :
    bufByte (memWrite s a l) x = bufByte s x := by
  rw [bufByte_memWrite, if_neg (by omega)]

theorem bufByte_memWrite_inside (s : State) (a : Nat) {i : Nat} {l : List Byte} (h : i < l.length) :
    bufByte (memWrite s a l) (a + i) = l[i] := by
  rw [bufByte_memWrite, if_pos (by omega), Nat.add_sub_cancel_left, List.getD_eq_getElem _ _ h]

@[simp] theorem memWrite_nil (s : State) (a : Nat) : memWrite s a [] = s := rfl

@[simp] theorem memRead_length (s : State) (a n : Nat) : (memRead s a n).length = n := by simp [memRead]

theorem memRead_getElem (s : State) (a n i : Nat) (h : i < (memRead s a n).length) :
    (memRead s a n)[i] = bufByte s (a + i) := by simp [memRead]

/-- MemRead depends only on the bytes it reads. -/
theorem memRead_congr {s t : State} {a n : Nat} (h : ∀ i, i < n → bufByte s (a + i) = bufByte t (a + i)) :
    memRead s a n = memRead t a n := by
  apply List.map_congr_left
  intro i hi
  exact h i (List.mem_range.mp hi)

theorem readBlock_congr {s t : State} {a b : Nat} (h : ∀ i, i < b → bufByte s (a + i) = bufByte t (a + i)) :
    readBlock s a b = readBlock t a b := by
  ext i hi
  simp [readBlock, h i hi]

@[simp] theorem readBlock_getElem (s : State) (a b i : Nat) (h : i < b) : (readBlock s a b)[i] = bufByte s (a + i) := by
  simp [readBlock]

/-- MemRead(a, m + n) is MemRead(a, m) followed by MemRead(a + m, n). -/
theorem memRead_append (s : State) (a m n : Nat) : memRead s a (m + n) = memRead s a m ++ memRead s (a + m) n := by
  simp [memRead, List.range_add, List.map_append, Nat.add_assoc, Function.comp_def]

/-! ### The canonical form -/

theorem mem_memStore {m : Memory} {a : Nat} {b : Byte} {c : Host.Cell} (h : c ∈ memStore m a b) :
    c = (a, b) ∨ c ∈ m := by
  induction m with
  | nil => simpa [memStore] using h
  | cons e rest ih =>
    obtain ⟨k, v⟩ := e
    simp only [memStore] at h
    split_ifs at h with h1 h2
    · simpa using h
    · simp only [List.mem_cons] at h ⊢; tauto
    · simp only [List.mem_cons] at h ⊢
      rcases h with h | h
      · exact .inr (.inl h)
      · rcases ih h with h | h
        · exact .inl h
        · exact .inr (.inr h)

/-- Storing a byte keeps the canonical form. -/
theorem memStore_wf {m : Memory} (a : Nat) (b : Byte) (h : m.wf) : (memStore m a b).wf := by
  induction m with
  | nil => simp [memStore, Memory.wf]
  | cons e rest ih =>
    obtain ⟨k, v⟩ := e
    simp only [Memory.wf, List.map_cons, List.pairwise_cons, List.mem_map] at h
    simp only [memStore]
    split_ifs with h1 h2
    · simp only [Memory.wf, List.map_cons, List.pairwise_cons, List.mem_cons, List.mem_map]
      refine ⟨?_, h⟩
      rintro x (rfl | ⟨c, hc, rfl⟩)
      · exact h1
      · exact Nat.lt_trans h1 (h.1 _ ⟨c, hc, rfl⟩)
    · subst h2
      simpa only [Memory.wf, List.map_cons, List.pairwise_cons, List.mem_map] using h
    · simp only [Memory.wf, List.map_cons, List.pairwise_cons, List.mem_map]
      refine ⟨?_, ih h.2⟩
      rintro x ⟨c, hc, rfl⟩
      rcases mem_memStore hc with rfl | hc
      · show k < a; omega
      · exact h.1 _ ⟨c, hc, rfl⟩

/-- Storing a byte string keeps the canonical form. -/
theorem memStoreAll_wf (l : List Byte) {m : Memory} (a : Nat) (h : m.wf) : (memStoreAll m a l).wf := by
  induction l generalizing m a with
  | nil => exact h
  | cons b rest ih => exact ih (a + 1) (memStore_wf a b h)

/-- MemWrite keeps the canonical form. -/
theorem memWrite_wf (s : State) (a : Nat) (l : List Byte) (h : s.buf.wf) : (memWrite s a l).buf.wf :=
  memStoreAll_wf l a h

/-- MemWrite inside BUF lists no offset outside BUF. -/
theorem memStoreAll_in_range (l : List Byte) {m : Memory} {a n : Nat} (hm : ∀ c ∈ m, c.1 < n)
    (h : a + l.length ≤ n) : ∀ c ∈ memStoreAll m a l, c.1 < n := by
  induction l generalizing m a with
  | nil => exact hm
  | cons b rest ih =>
    simp only [List.length_cons] at h
    refine ih (fun c hc => ?_) (by omega)
    rcases mem_memStore hc with rfl | hc
    · show a < n; omega
    · exact hm c hc

/-- Reset memory lists nothing and has the canonical form. -/
theorem reset_buf_wf : State.reset.buf.wf := List.Pairwise.nil

theorem resetBlock_buf_wf (s : State) : (resetBlock s).buf.wf := List.Pairwise.nil

end Sys2Proof.Machine
end

