-- ==== Sys2Proof/Laws/Ops.lean ====
section
/-! SUPPORT. One lemma for each shared operation that says once everything it can do, for the proofs to cite instead of
unfolding the operation. -/

namespace Sys2Proof.Machine

/-! ### Byte strings -/

theorem byteAt_lt {n : Nat} (s : Bytes n) {i : Nat} (h : i < n) : byteAt s i = s[i] := by simp [byteAt, h]

theorem byteAt_ge {n : Nat} (s : Bytes n) {i : Nat} (h : n ≤ i) : byteAt s i = 0 := by
  simp [byteAt, Nat.not_lt.mpr h]

@[simp] theorem sliceOf_getElem {n : Nat} (s : Bytes n) (i m j : Nat) (h : j < m) :
    (sliceOf s i m)[j] = byteAt s (i + j) := by simp [sliceOf]

@[simp] theorem xorBytes_getElem {n : Nat} (a b : Bytes n) (i : Nat) (h : i < n) : (xorBytes a b)[i] = a[i] ^^^ b[i] := by
  simp [xorBytes]

@[simp] theorem padZero_getElem {n : Nat} (m : Nat) (s : Bytes n) (i : Nat) (h : i < m) :
    (padZero m s)[i] = byteAt s i := by simp [padZero]

theorem replaceFirst_getElem {n m : Nat} (a : Bytes n) (w : Bytes m) (i : Nat) (h : i < m) :
    (replaceFirst a w)[i] = if i < n then byteAt a i else w[i] := by simp [replaceFirst]

@[simp] theorem beBytes_getElem (n v i : Nat) (h : i < n) :
    (beBytes n v)[i] = BitVec.ofNat 8 (v >>> (8 * (n - 1 - i))) := by simp [beBytes]

theorem setWordOf_getElem {n : Nat} (s : Bytes n) (w : Nat) (v : Word) (i : Nat) (h : i < n) :
    (setWordOf s w v)[i] = if i / 4 = w then wordByte v (i % 4) else s[i] := by simp [setWordOf]

@[simp] theorem leBytes_length (n : Nat) (v : Word) : (leBytes n v).length = n := by simp [leBytes]

@[simp] theorem leBytes_getElem (n : Nat) (v : Word) (i : Nat) (h : i < (leBytes n v).length) :
    (leBytes n v)[i] = wordByte v i := by simp [leBytes]

theorem chainIv_getElem (k : KeyContext) (b i : Nat) (h : i < b) (h16 : i < 16) : (chainIv k b)[i] = k.iv[i] := by
  simp [chainIv, byteAt_lt k.iv h16]

theorem xorBytes_comm {n : Nat} (a b : Bytes n) : xorBytes a b = xorBytes b a := by
  ext i hi
  simp [BitVec.xor_comm]

/-- XORing the same string twice gives the string back. -/
@[simp] theorem xorBytes_cancel {n : Nat} (a b : Bytes n) : xorBytes (xorBytes a b) b = a := by
  ext i hi
  simp

/-- The four bytes of a word packed again are the word (R85). -/
theorem packWord_wordByte (v : Word) : packWord (wordByte v 0) (wordByte v 1) (wordByte v 2) (wordByte v 3) = v := by
  apply BitVec.eq_of_getLsbD_eq
  intro i hi
  simp only [packWord, wordByte, BitVec.getLsbD_append, BitVec.getLsbD_extractLsb']
  rcases (by omega : i < 8 ∨ (8 ≤ i ∧ i < 16) ∨ (16 ≤ i ∧ i < 24) ∨ 24 ≤ i) with h | h | h | h
  · simp [h]
  · rw [if_neg (by omega), if_pos (by omega)]; simp; grind
  · rw [if_neg (by omega), if_neg (by omega), if_pos (by omega)]; simp; grind
  · rw [if_neg (by omega), if_neg (by omega), if_neg (by omega)]; simp; grind

theorem KeyType.blockSize_cases (t : KeyType) : t.blockSize = 8 ∨ t.blockSize = 16 := by cases t <;> simp [blockSize]

theorem KeyType.blockSize_pos (t : KeyType) : 0 < t.blockSize := by cases t <;> decide

theorem KeyType.blockSize_le (t : KeyType) : t.blockSize ≤ 16 := by cases t <;> decide

/-- Every two-bit value is the code of the type it names (R170). -/
@[simp] theorem KeyType.ofCode_code (t : KeyType) : KeyType.ofCode t.code = t := by cases t <;> decide

/-! ### Commands -/

/-- A CRC command ends with ERR_BOUNDS, or appends, sets CRCR and CZ, and completes (R146 to R149). -/
theorem checksumCommand_cases (k : Nat) (crc : List Byte → Word) (s : State) :
    (s.params.bufBytes < s.off.toNat + s.len.toNat + k ∧ checksumCommand k crc s = raiseError .bounds s) ∨
      (s.off.toNat + s.len.toNat + k ≤ s.params.bufBytes ∧
        checksumCommand k crc s =
          complete (setCrc (crc (memRead s s.off.toNat s.len.toNat))
            (memWrite s (s.off.toNat + s.len.toNat) (leBytes k (crc (memRead s s.off.toNat s.len.toNat)))))) := by
  by_cases h : s.off.toNat + s.len.toNat + k ≤ s.params.bufBytes
  · exact .inr ⟨h, by simp [checksumCommand, inBuf, offset, count, ← Nat.add_assoc, h]⟩
  · exact .inl ⟨by omega, by simp [checksumCommand, inBuf, offset, count, ← Nat.add_assoc, h]⟩

/-- DERIVE ends with ERR_NOKEY, or sets the subkeys of its context and completes (R177). -/
theorem deriveCommand_cases (P : Primitives) (c : Ctx) (s : State) :
    ((s.ctx c).kvalid = false ∧ deriveCommand P c s = raiseError .nokey s) ∨
      ((s.ctx c).kvalid = true ∧
        deriveCommand P c s =
          complete (setSubkeys c (subkey1 P (s.ctx c).keyType (s.ctx c).key)
            (subkey2 P (s.ctx c).keyType (s.ctx c).key) s)) := by
  rcases h : (s.ctx c).kvalid with _ | _
  · exact .inl ⟨rfl, by simp [deriveCommand, h]⟩
  · exact .inr ⟨rfl, by simp [deriveCommand, h]⟩

/-- CBC1 ends with an error, or does one chaining step in place and completes (R194). -/
theorem cbc1Command_cases (P : Primitives) (c : Ctx) (d : Dir) (o : CipherOp) (s : State) :
    ((s.ctx c).kvalid = false ∧ cbc1Command P c d o s = raiseError .nokey s) ∨
      ((s.ctx c).kvalid = true ∧ s.params.bufBytes < s.off.toNat + (s.ctx c).keyType.blockSize ∧
        cbc1Command P c d o s = raiseError .bounds s) ∨
      ((s.ctx c).kvalid = true ∧ s.off.toNat + (s.ctx c).keyType.blockSize ≤ s.params.bufBytes ∧
        ∃ r, r = cbcStep P (s.ctx c).keyType (s.ctx c).key d o
              (readBlock s s.off.toNat (s.ctx c).keyType.blockSize) (chainIv (s.ctx c) (s.ctx c).keyType.blockSize) ∧
          cbc1Command P c d o s = complete (setIvFirst c r.2 (memWrite s s.off.toNat r.1.toList))) := by
  rcases hk : (s.ctx c).kvalid with _ | _
  · exact .inl ⟨rfl, by simp [cbc1Command, hk]⟩
  · by_cases h : s.off.toNat + (s.ctx c).keyType.blockSize ≤ s.params.bufBytes
    · exact .inr (.inr ⟨rfl, h, _, rfl, by simp [cbc1Command, hk, inBuf, offset, h]⟩)
    · exact .inr (.inl ⟨rfl, by omega, by simp [cbc1Command, hk, inBuf, offset, h]⟩)

/-- CBCN ends with an error, or resets the IV where R196 says so, runs its loop and completes (R195). -/
theorem cbcnCommand_cases (P : Primitives) (c : Ctx) (d : Dir) (o : CipherOp) (s : State) :
    ((s.ctx c).kvalid = false ∧ cbcnCommand P c d o s = raiseError .nokey s) ∨
      ((s.ctx c).kvalid = true ∧ s.len.toNat % (s.ctx c).keyType.blockSize ≠ 0 ∧
        cbcnCommand P c d o s = raiseError .length s) ∨
      ((s.ctx c).kvalid = true ∧ s.len.toNat % (s.ctx c).keyType.blockSize = 0 ∧
        s.params.bufBytes < s.off.toNat + s.len.toNat ∧ cbcnCommand P c d o s = raiseError .bounds s) ∨
      ((s.ctx c).kvalid = true ∧ s.len.toNat % (s.ctx c).keyType.blockSize = 0 ∧
        s.off.toNat + s.len.toNat ≤ s.params.bufBytes ∧
        ∃ r, r = cbcLoop P (s.ctx c).keyType (s.ctx c).key d o (s.len.toNat / (s.ctx c).keyType.blockSize)
              s.off.toNat (chainIv ((legacyReset c s).ctx c) (s.ctx c).keyType.blockSize) (legacyReset c s) ∧
          cbcnCommand P c d o s = complete (setIvFirst c r.2 r.1)) := by
  rcases hk : (s.ctx c).kvalid with _ | _
  · exact .inl ⟨rfl, by simp [cbcnCommand, hk]⟩
  · refine .inr ?_
    by_cases hl : s.len.toNat % (s.ctx c).keyType.blockSize = 0
    · refine .inr ?_
      by_cases h : s.off.toNat + s.len.toNat ≤ s.params.bufBytes
      · exact .inr ⟨rfl, hl, h, _, rfl, by simp [cbcnCommand, hk, hl, inBuf, offset, count, h]⟩
      · exact .inl ⟨rfl, hl, by omega, by simp [cbcnCommand, hk, hl, inBuf, offset, count, h]⟩
    · exact .inl ⟨rfl, hl, by simp [cbcnCommand, hk, hl, count]⟩

/-- The loop of CBCN writes BUF and nothing else. -/
theorem cbcLoop_writes_buf_only (P : Primitives) (t : KeyType) (key : Bytes 24) (d : Dir) (o : CipherOp)
    (blocks a : Nat) (iv : Bytes t.blockSize) (s : State) :
    ∃ m, (cbcLoop P t key d o blocks a iv s).1 = { s with buf := m } := by
  induction blocks generalizing a iv s with
  | zero => exact ⟨s.buf, rfl⟩
  | succ n ih =>
    obtain ⟨m, hm⟩ := ih (a + t.blockSize) (cbcStep P t key d o (readBlock s a t.blockSize) iv).2
      (memWrite s a (cbcStep P t key d o (readBlock s a t.blockSize) iv).1.toList)
    exact ⟨m, by rw [cbcLoop, hm]; rfl⟩

/-- The loop of CBCN leaves every byte outside its blocks as it was. -/
theorem cbcLoop_outside (P : Primitives) (t : KeyType) (key : Bytes 24) (d : Dir) (o : CipherOp)
    (blocks a : Nat) (iv : Bytes t.blockSize) (s : State) (x : Nat)
    (h : x < a ∨ a + blocks * t.blockSize ≤ x) :
    bufByte (cbcLoop P t key d o blocks a iv s).1 x = bufByte s x := by
  induction blocks generalizing a iv s with
  | zero => rfl
  | succ n ih =>
    have hb : (n + 1) * t.blockSize = n * t.blockSize + t.blockSize := Nat.succ_mul ..
    rw [cbcLoop, ih _ _ _ (by omega), bufByte_memWrite_outside]
    simp only [Vector.length_toList]
    omega

/-- The first block of the loop of CBCN is the chaining step on it and on the value the loop starts from. -/
theorem cbcLoop_first_block (P : Primitives) (t : KeyType) (key : Bytes 24) (d : Dir) (o : CipherOp)
    (blocks a : Nat) (iv : Bytes t.blockSize) (s : State) (h : blocks ≠ 0) :
    readBlock (cbcLoop P t key d o blocks a iv s).1 a t.blockSize =
      (cbcStep P t key d o (readBlock s a t.blockSize) iv).1 := by
  cases blocks with
  | zero => exact absurd rfl h
  | succ n =>
    rw [cbcLoop]
    apply Vector.ext
    intro i hi
    rw [readBlock_getElem]
    generalize cbcStep P t key d o (readBlock s a t.blockSize) iv = x
    rw [cbcLoop_outside _ _ _ _ _ _ _ _ _ _ (by omega), bufByte_memWrite_inside _ _ (by simpa using hi)]
    simp

/-! ### The aperture -/

/-- No register is at a word that none of R22's offsets and no BUF word occupies (R23, R83). -/
theorem regAt_unoccupied (p : Params) (addr : Half) (h4 : addr.toNat % 4 = 0)
    (h : unoccupied p.bufBytes addr.toNat) : regAt p addr = .unmapped := by
  unfold regAt
  simp only
  split
  · omega
  split
  · unfold ctxRegAt
    repeat' split
    all_goals first | rfl | (exfalso; omega)
  split
  · unfold ctxRegAt
    repeat' split
    all_goals first | rfl | (exfalso; omega)
  split
  · omega
  · rfl

/-! ### Events -/

/-- What the engine's step does (R235). -/
theorem engineStep_cases (s : State) :
    (∃ i, decode s.pend = .ok i ∧ engineStep s = exec i s) ∨
      (∃ e, decode s.pend = .error e ∧ engineStep s = .next (raiseError .opcode s)) := by
  rcases h : decode s.pend with e | i
  · exact .inr ⟨e, rfl, by simp [engineStep, h]⟩
  · exact .inl ⟨i, rfl, by simp [engineStep, h]⟩

/-- What a step can be: an access, an engine step, an idle turn, or a reset (R89, R235, R260). -/
theorem step_cases (s : State) :
    (∃ a rest, s.script = .host a :: rest ∧ step s = .next (hostAccess a { s with script := rest })) ∨
      (∃ rest, s.script = .reset :: rest ∧ step s = .next (resetBlock { s with script := rest })) ∨
      (∃ rest, (s.script = .engine :: rest ∨ (s.script = [] ∧ rest = [])) ∧
        ((s.busy = true ∧ step s = engineStep { s with script := rest }) ∨
          (s.busy = false ∧ step s = .next { s with script := rest }))) := by
  rcases hs : s.script with _ | ⟨e, rest⟩
  · refine .inr (.inr ⟨[], .inr ⟨rfl, rfl⟩, ?_⟩)
    have e : { s with script := [] } = s := by rw [← hs]
    rw [e]
    rcases hb : s.busy with _ | _
    · exact .inr ⟨rfl, by simp [step, advance, hs, engineTurn, hb]⟩
    · exact .inl ⟨rfl, by simp [step, advance, hs, engineTurn, hb]⟩
  · cases e with
    | host a => exact .inl ⟨a, rest, rfl, by simp [step, advance, hs, takeEvent]⟩
    | reset => exact .inr (.inl ⟨rest, rfl, by simp [step, advance, hs, takeEvent]⟩)
    | engine =>
      refine .inr (.inr ⟨rest, .inl rfl, ?_⟩)
      rcases hb : s.busy with _ | _
      · exact .inr ⟨rfl, by simp [step, advance, hs, takeEvent, engineTurn, hb]⟩
      · exact .inl ⟨rfl, by simp [step, advance, hs, takeEvent, engineTurn, hb]⟩

/-- What a bus Read can do (R35, R81, R82). -/
theorem busRead_cases (addr : Half) (s : State) :
    (addr.toNat % 4 ≠ 0 ∧ busRead addr s = misaligned (some 0) s) ∨
      (addr.toNat % 4 = 0 ∧ s.busy = true ∧ (regAt s.params addr).hiddenWhileBusy = true ∧
        busRead addr s = answer .ok (some (Config.freeRead s.draws)) { s with draws := s.draws + 1 }) ∨
      (addr.toNat % 4 = 0 ∧ (s.busy = false ∨ (regAt s.params addr).hiddenWhileBusy = false) ∧
        busRead addr s = answer .ok (some (readReg s (regAt s.params addr))) s) := by
  by_cases ha : addr.toNat % 4 = 0
  · refine .inr ?_
    rcases hb : s.busy && (regAt s.params addr).hiddenWhileBusy with _ | _
    · refine .inr ⟨ha, Bool.and_eq_false_iff.mp hb, ?_⟩
      simp only [busRead, aligned, ha, decide_true, if_true, hb, Bool.false_eq_true, if_false]
    · rw [Bool.and_eq_true] at hb
      exact .inl ⟨ha, hb.1, hb.2, by simp [busRead, aligned, ha, hb.1, hb.2]⟩
  · exact .inl ⟨ha, by simp [busRead, aligned, ha]⟩

/-- What a bus Write can do (R27, R34, R81, R82). -/
theorem busWrite_cases (addr : Half) (v : Word) (s : State) :
    (addr.toNat % 4 ≠ 0 ∧ busWrite addr v s = misaligned none s) ∨
      (addr.toNat % 4 = 0 ∧ s.busy = true ∧ regAt s.params addr = .status ∧
        busWrite addr v s = answer .ok none (clearFlags v s)) ∨
      (addr.toNat % 4 = 0 ∧ s.busy = true ∧ regAt s.params addr ≠ .status ∧
        busWrite addr v s = answer .ok none (setOverrun s)) ∨
      (addr.toNat % 4 = 0 ∧ s.busy = false ∧
        busWrite addr v s = answer .ok none (writeReg v s (regAt s.params addr))) := by
  by_cases ha : addr.toNat % 4 = 0
  · refine .inr ?_
    rcases hb : s.busy with _ | _
    · exact .inr (.inr ⟨ha, rfl, by simp [busWrite, aligned, ha, applyWrite, hb]⟩)
    · by_cases hr : regAt s.params addr = .status
      · exact .inl ⟨ha, rfl, hr, by simp [busWrite, aligned, ha, applyWrite, hb, hr]⟩
      · exact .inr (.inl ⟨ha, rfl, hr, by simp [busWrite, aligned, ha, applyWrite, hb, hr]⟩)
  · exact .inl ⟨ha, by simp [busWrite, aligned, ha]⟩

end Sys2Proof.Machine
end

