-- ==== Sys2Proof/Laws/PerInstr.lean ====
section
/-! SUPPORT. The statements made of every command as syntax, one lemma per constructor: the word of a command has its
opcode in OPC, zeros in its reserved bits, and its own row of the opcode table (30_encoding.md R110, R111, R115). -/

namespace Sys2Proof.Laws.WordShape

/-- The command is well-formed, and its word has the shape of R110. -/
def Statement (i : Instr) : Prop :=
  i.wellFormed = true ∧ fieldHigh (encode i) = 0#25 ∧ (fieldOpc (encode i)).toNat = i.opcode ∧
    (opcodeTable.filter fun r => r.matches (encode i)).map OpcodeRow.mnemonic = [i.mnemonic]

theorem crc16 : Statement .crc16 := by unfold Statement; decide

theorem crc16a : Statement .crc16a := by unfold Statement; decide

theorem crc32 : Statement .crc32 := by unfold Statement; decide

theorem crc32a : Statement .crc32a := by unfold Statement; decide

theorem cbc1 (c : Ctx) (d : Dir) (o : CipherOp) : Statement (.cbc1 c d o) := by
  cases c <;> cases d <;> cases o <;> unfold Statement <;> decide

theorem cbcn (c : Ctx) (d : Dir) (o : CipherOp) : Statement (.cbcn c d o) := by
  cases c <;> cases d <;> cases o <;> unfold Statement <;> decide

theorem derive (c : Ctx) : Statement (.derive c) := by
  cases c <;> unfold Statement <;> decide

end Sys2Proof.Laws.WordShape
end

