-- ==== Sys2Proof/Tests/Slice0.lean ====
section
/-! SUPPORT. Tests on small states, and for each obligation a concrete state and operands that meet its hypotheses. The
expected values are the spec's: the vectors of 95_test_vectors.md, the words of 30_encoding.md R118. -/

namespace Sys2Proof.Tests

open Sys2Proof.Machine

/-! ### Helpers -/

/-- TOY_E of 95_test_vectors.md: rotate left one byte, then XOR the key. -/
def toyE {n : Nat} (k x : Bytes n) : Bytes n := Vector.ofFn fun i => byteAt x ((i.val + 1) % n) ^^^ k[i]

/-- TOY_D, its inverse. -/
def toyD {n : Nat} (k y : Bytes n) : Bytes n :=
  Vector.ofFn fun i => byteAt y ((i.val + (n - 1)) % n) ^^^ byteAt k ((i.val + (n - 1)) % n)

/-- The cipher TOY as an instance of the parameters. -/
def toy : Primitives where
  desE := toyE
  desD := toyD
  aesE := toyE
  aesD := toyD

/-- A context with a committed key of type t: KEY 01 02 ... 08 and zeros, IV a0 a1 ... a7 and zeros. -/
def keyed (t : KeyType) : KeyContext :=
  { KeyContext.reset with
    keyType := t, kvalid := true, key := padTo 24 [1, 2, 3, 4, 5, 6, 7, 8],
    iv := padTo 16 [0xa0, 0xa1, 0xa2, 0xa3, 0xa4, 0xa5, 0xa6, 0xa7] }

/-- The reset state with OFF and LEN set. -/
def window (off len : Half) : State := { State.reset with off := off, len := len }

/-- ... with both contexts keyed with type t, and BUF written from offset 0 on. -/
def ready (t : KeyType) (off len : Half) (bytes : List Byte) : State :=
  memWrite { window off len with ctx0 := keyed t, ctx1 := keyed t } 0 bytes

/-- The input of the V-CBC vectors. -/
def plain : List Byte := [0x10, 0x20, 0x30, 0x40, 0x50, 0x60, 0x70, 0x80]

/-- The machine with a command word accepted. -/
def running (v : Word) (s : State) : State := acceptCommand v s

/-! ### WellFormed: for each check a term it refuses -/

theorem test_field_too_wide : fitsField 1 2 = false := by decide
theorem test_word_high_bits : Word.highBitsSet 0x80#32 = true ∧ Word.highBitsSet 0x7F#32 = false := by decide
theorem test_word_opcode_0 : Word.badOpcode 0x00#32 = true := by decide
theorem test_word_opcode_8 : Word.badOpcode 0x08#32 = true ∧ Word.badOpcode 0x07#32 = false := by decide
theorem test_word_crc_fields : Word.badCrcFields 0x11#32 = true ∧ Word.badCrcFields 0x44#32 = true := by decide
theorem test_word_derive_fields : Word.badDeriveFields 0x27#32 = true ∧ Word.badDeriveFields 0x17#32 = false := by decide
theorem test_params_not_multiple : Params.wellFormed ⟨24⟩ = false := by decide
theorem test_params_too_small : Params.wellFormed ⟨0⟩ = false := by decide
theorem test_params_too_large : Params.wellFormed ⟨32784⟩ = false := by decide
theorem test_params_legal : Params.wellFormed ⟨16⟩ = true ∧ Params.wellFormed ⟨32768⟩ = true := by decide

/-! ### Decode: every constructor from a word written out bit by bit (R110, R118) -/

theorem test_decode_crc16 : decode 0b00000000000000000000000000000001#32 = .ok .crc16 := by rfl
theorem test_decode_crc16a : decode 0b00000000000000000000000000000010#32 = .ok .crc16a := by rfl
theorem test_decode_crc32 : decode 0b00000000000000000000000000000011#32 = .ok .crc32 := by rfl
theorem test_decode_crc32a : decode 0b00000000000000000000000000000100#32 = .ok .crc32a := by rfl
theorem test_decode_cbc1 : decode 0b00000000000000000000000000100101#32 = .ok (.cbc1 .explicit .receive .encipher) := by
  rfl
theorem test_decode_cbcn : decode 0b00000000000000000000000001010110#32 = .ok (.cbcn .session .send .decipher) := by rfl
theorem test_decode_derive : decode 0b00000000000000000000000000010111#32 = .ok (.derive .session) := by rfl
/-- V-ERR-1, one word for each case of R115. -/
theorem test_decode_reserved :
    decode 0x00000000#32 = .error .opcode ∧ decode 0x0000000F#32 = .error .opcode ∧
      decode 0x00000041#32 = .error .crcFields ∧ decode 0x00000047#32 = .error .deriveFields ∧
      decode 0x80000006#32 = .error .highBits := ⟨rfl, rfl, rfl, rfl, rfl⟩
theorem test_table_word : decodeTableWord 32 7 = some (.derive .explicit) := by rfl
/-- The example of R119. -/
theorem test_text : Instr.text (.cbcn .session .send .decipher) = "CBCN S, SEND, DEC" := by rfl

/-! ### One step each -/

/-- V-CRC-4, and the trace V-CRC-11. -/
theorem test_crc16_vector : crc16 [0x12, 0x34] = 0xCF26#16 ∧ upd16 0x6363#16 0x12 = 0x626D#16 := by decide

/-- V-CRC-5 and V-CRC-9. -/
theorem test_crc32_vector :
    crc32 [0x31, 0x32, 0x33, 0x34, 0x35, 0x36, 0x37, 0x38, 0x39] = 0x340BC6D9#32 ∧
      crc32 [0xff, 0xff, 0xff, 0xff] = 0 := by decide +kernel

/-- V-CRC-12: input and appended bytes give 0 and CZ. -/
theorem test_crc16_residue_sets_cz :
    (match exec .crc16 (ready .des 0 4 [0x12, 0x34, 0x26, 0xcf]) with
      | .next t => (t.crcr, statusWord t)
      | _ => (1, 0)) = (0, 6) := by decide

/-- V-CRC-3 with the append form: a0 1e after the input. -/
theorem test_crc16a_appends :
    (match exec .crc16a (ready .des 0 2 [0x00, 0x00]) with
      | .next t => memRead t 0 4
      | _ => []) = [0x00, 0x00, 0xa0, 0x1e] := by decide

/-- V-CRC-14: no room for the second byte. -/
theorem test_crc16a_bounds :
    (match exec .crc16a (window 255 0) with
      | .next t => (statusWord t, t.buf)
      | _ => (0, [])) = (0x42, []) := by decide

/-- V-CRC-7 and its CZ. -/
theorem test_crc32_of_one_byte :
    (match exec .crc32 (ready .des 0 1 [0x01]) with
      | .next t => (t.crcr, t.cz)
      | _ => (0, true)) = (0x5AFA20E4, false) := by decide

/-- V-CRC-6 with the append form. -/
theorem test_crc32a_appends :
    (match exec .crc32a (ready .des 0 1 [0xff]) with
      | .next t => memRead t 0 5
      | _ => []) = [0xff, 0xff, 0xff, 0xff, 0x00] := by decide

/-- V-SK-1 with TOY: K1, K2 and KEYCFG. -/
theorem test_derive_des :
    (deriveCommand toy .explicit (ready .des 0 0 [])).ctx0.k1.toList.take 8 =
        [0x02, 0x04, 0x06, 0x08, 0x0a, 0x0c, 0x0e, 0x10] ∧
      keycfgWord (deriveCommand toy .explicit (ready .des 0 0 [])).ctx0 = 0x300 := by decide

/-- V-SK-7: the carry out of the top bit brings Rb in. -/
theorem test_doubling_with_carry :
    (dbl (padTo 8 [0xff, 0xff, 0xff, 0xff, 0xff, 0xff, 0xff, 0xff])).toList =
      [0xff, 0xff, 0xff, 0xff, 0xff, 0xff, 0xff, 0xe5] := by decide

/-- V-CBC-1 with TOY: Send, Encipher. -/
theorem test_cbc1_send :
    memRead (cbc1Command toy .explicit .send .encipher (ready .des 0 0 plain)) 0 8 =
      [0x80, 0x90, 0xe0, 0xf0, 0xc0, 0xd0, 0x20, 0xb8] := by decide

/-- V-CBC-4 with TOY: Receive, Decipher; the IV is the old input. -/
theorem test_cbc1_receive :
    memRead (cbc1Command toy .explicit .receive .decipher (ready .des 0 0 plain)) 0 8 =
        [0x28, 0xb0, 0x80, 0x90, 0xe0, 0xf0, 0xc0, 0xd0] ∧
      (cbc1Command toy .explicit .receive .decipher (ready .des 0 0 plain)).ctx0.iv.toList.take 8 = plain := by decide

/-- V-CBC-16 with TOY: the legacy reset comes first. -/
theorem test_cbcn_legacy_reset :
    memRead (cbcnCommand toy .session .send .encipher (ready .des 0 8 plain)) 0 8 =
      [0x21, 0x32, 0x43, 0x54, 0x65, 0x76, 0x87, 0x18] := by decide

/-- V-ERR-6 with TOY: ERR_LENGTH before ERR_BOUNDS. -/
theorem test_cbcn_length_first :
    statusWord (cbcnCommand toy .explicit .send .encipher (ready .des 250 7 [])) = 0x32 := by decide

/-- V-SK-14, through a step: DERIVE after reset has no key. -/
theorem test_step_derive_without_key :
    (match step (State.reset.withFetchWord 32 0x07) with
      | .next t => statusWord t
      | _ => 0) = 0x22 := by decide

/-- V-ERR-8: a misaligned read. -/
theorem test_misaligned_read : (hostAccess (.read 0x000E) State.reset).reply = some ⟨.error, some 0⟩ := by decide

/-- V-REG-3. -/
theorem test_keycfg_write :
    readReg (hostAccess (.write 0x100 0xFFFFFFFF) State.reset) (.keycfg .explicit) = 0x103 := by decide

/-- V-REG-4. -/
theorem test_ctrl_write : readReg (hostAccess (.write 0x004 0xFFFFFFFF) State.reset) .ctrl = 3 := by decide

/-- V-REG-5: a write to OFF while busy. -/
theorem test_busy_write : statusWord (hostAccess (.write 0x010 0x20) (running 1 State.reset)) = 9 := by decide

/-- P1, its first line: WRBUF packs little-endian. -/
theorem test_wrbuf : hostWrBuf 0 [0x12, 0x34, 0x00, 0x00] = [.host (.write 0x8000 0x00003412)] := by decide

/-! ### TOY meets the inversion hypothesis -/

theorem byteAt_ofFn {n : Nat} (f : Fin n → Byte) {i : Nat} (h : i < n) : byteAt (Vector.ofFn f) i = f ⟨i, h⟩ := by
  simp [byteAt, h]

theorem toyD_toyE {n : Nat} (hn : 0 < n) (k y : Bytes n) : toyD k (toyE k y) = y := by
  apply Vector.ext
  intro i hi
  have h1 : (i + (n - 1)) % n < n := Nat.mod_lt _ hn
  have h2 : ((i + (n - 1)) % n + 1) % n = i := by
    rw [Nat.mod_add_mod, show i + (n - 1) + 1 = i + n by omega, Nat.add_mod_right, Nat.mod_eq_of_lt hi]
  simp only [toyD, toyE, Vector.getElem_ofFn, byteAt_ofFn _ h1, h2, byteAt_lt y hi, byteAt_lt k h1]
  simp

theorem toyE_toyD {n : Nat} (hn : 0 < n) (k y : Bytes n) : toyE k (toyD k y) = y := by
  apply Vector.ext
  intro i hi
  have h1 : (i + 1) % n < n := Nat.mod_lt _ hn
  have h2 : ((i + 1) % n + (n - 1)) % n = i := by
    rw [Nat.mod_add_mod, show i + 1 + (n - 1) = i + n by omega, Nat.add_mod_right, Nat.mod_eq_of_lt hi]
  simp only [toyD, toyE, Vector.getElem_ofFn, byteAt_ofFn _ h1, h2, byteAt_lt y hi, byteAt_lt k hi]
  simp

theorem toy_inverts : toy.Inverts where
  desD_desE := toyD_toyE (by decide)
  desE_desD := toyE_toyD (by decide)
  aesD_aesE := toyD_toyE (by decide)
  aesE_aesD := toyE_toyD (by decide)

/-! ### Witnesses: the hypotheses of each obligation are met, clause by clause -/

theorem witness_DecodeAndEncodeAgree :
    (Instr.wellFormed .crc16 = true) ∧ decode 0x76#32 = .ok (.cbcn .session .receive .decipher) := ⟨rfl, rfl⟩

theorem witness_ReservedWordIsAcceptedAndFails :
    Word.highBitsSet 0x80 = true ∧ Word.badOpcode 0x8 = true ∧ Word.badCrcFields 0x11 = true ∧
      Word.badDeriveFields 0x27 = true ∧ State.reset.busy = false ∧
      ∀ v, { State.reset with script := [.host (.write 0x00C v), .engine] }.script =
        .host (.write 0x00C v) :: .engine :: [] :=
  ⟨by decide, by decide, by decide, by decide, rfl, fun _ => rfl⟩

theorem witness_StepRunsTheDecodedCommand :
    (running 5 State.reset).busy = true ∧
      decode (running 5 State.reset).pend = .ok (.cbc1 .explicit .send .encipher) ∧
      Instr.wellFormed (.cbc1 .explicit .send .encipher) = true ∧ (running 5 State.reset).script = [] ∧
      { running 5 State.reset with script := [.engine] }.script = .engine :: [] := ⟨rfl, rfl, rfl, rfl, rfl⟩

theorem witness_PlacedWordRunsNext : decodeTableWord 32 0x17 = some (.derive .session) := by rfl

theorem witness_EventsHappenInScriptOrder :
    { State.reset with script := [.host (.read 0)] }.script = .host (.read 0) :: [] ∧
      { State.reset with script := [.reset] }.script = .reset :: [] ∧
      ({ State.reset with script := [.engine] }.busy = false ∧
        { State.reset with script := [.engine] }.script = .engine :: []) ∧
      State.reset.busy = false ∧ State.reset.script = [] := ⟨rfl, rfl, ⟨rfl, rfl⟩, rfl, rfl⟩

/-- OFF at the very end of BUF with nothing to read, and one byte too many. -/
theorem witness_Crc16Command :
    ((running 0x11 State.reset).pend.toNat % 16 = 1 ∧ (running 0x11 State.reset).pend.toNat / 16 ≠ 0) ∧
      (window 256 0).off.toNat + (window 256 0).len.toNat ≤ (window 256 0).params.bufBytes ∧ (window 256 0).len = 0 ∧
      (window 256 1).params.bufBytes < (window 256 1).off.toNat + (window 256 1).len.toNat := by decide

theorem witness_Crc16AppendCommand :
    ((running 0x12 State.reset).pend.toNat % 16 = 2 ∧ (running 0x12 State.reset).pend.toNat / 16 ≠ 0) ∧
      (window 254 0).off.toNat + (window 254 0).len.toNat + 2 ≤ (window 254 0).params.bufBytes ∧
      (window 254 0).len.toNat + 2 < 65536 ∧
      (window 255 0).params.bufBytes < (window 255 0).off.toNat + (window 255 0).len.toNat + 2 := by decide

theorem witness_Crc32Command :
    ((running 0x43 State.reset).pend.toNat % 16 = 3 ∧ (running 0x43 State.reset).pend.toNat / 16 ≠ 0) ∧
      (window 0 256).off.toNat + (window 0 256).len.toNat ≤ (window 0 256).params.bufBytes ∧
      ((window 256 0).len = 0 ∧ (window 256 0).off.toNat ≤ (window 256 0).params.bufBytes) ∧
      (window 0 257).params.bufBytes < (window 0 257).off.toNat + (window 0 257).len.toNat := by decide

/-- V-CRC-14: 250 + 3 + 4 > 256. -/
theorem witness_Crc32AppendCommand :
    ((running 0x14 State.reset).pend.toNat % 16 = 4 ∧ (running 0x14 State.reset).pend.toNat / 16 ≠ 0) ∧
      (window 249 3).off.toNat + (window 249 3).len.toNat + 4 ≤ (window 249 3).params.bufBytes ∧
      (window 249 3).len.toNat + 4 < 65536 ∧
      (window 250 3).params.bufBytes < (window 250 3).off.toNat + (window 250 3).len.toNat + 4 := by decide

/-- Two states that differ in CTRL and a key context. -/
theorem witness_ChecksumCommandsTouchOnlyTheirState :
    ∃ s₁ s₂ : State, s₁ ≠ s₂ ∧ s₁.params = s₂.params ∧ s₁.off = s₂.off ∧ s₁.len = s₂.len ∧
      ∀ x, x < s₁.params.bufBytes → bufByte s₁ x = bufByte s₂ x :=
  ⟨State.reset, { State.reset with ie := true, ctx1 := keyed .aes }, by decide, rfl, rfl, rfl, fun _ _ => rfl⟩

/-- Two DES keys that differ in a byte DES does not use. -/
theorem witness_ComponentKeysAreConsecutiveSlices :
    ∃ k₁ k₂ : Bytes 24, k₁ ≠ k₂ ∧
      ∀ (i : Nat) (h : i < 24), (i < 8 ∨ (KeyType.des ≠ .des ∧ i < 16) ∨ KeyType.des = .tdes3) → k₁[i] = k₂[i] := by
  refine ⟨padTo 24 [], padTo 24 [0, 0, 0, 0, 0, 0, 0, 0, 1], by decide, ?_⟩
  intro i h hi
  have : i < 8 := by simpa using hi
  simp only [padTo, Vector.getElem_ofFn]
  rcases (by omega : i = 0 ∨ i = 1 ∨ i = 2 ∨ i = 3 ∨ i = 4 ∨ i = 5 ∨ i = 6 ∨ i = 7) with
    rfl | rfl | rfl | rfl | rfl | rfl | rfl | rfl <;> rfl

theorem witness_EqualHalvesMakeTripleDesSingleDes :
    (∀ k y, toy.desD k (toy.desE k y) = y) ∧ (∀ k y, toy.desE k (toy.desD k y) = y) ∧
      key1 (padTo 24 [1, 2, 3, 4, 5, 6, 7, 8, 1, 2, 3, 4, 5, 6, 7, 8]) =
        key2 (padTo 24 [1, 2, 3, 4, 5, 6, 7, 8, 1, 2, 3, 4, 5, 6, 7, 8]) ∧
      key1 (padTo 24 [1, 2, 3, 4, 5, 6, 7, 8]) =
        key1 (padTo 24 [1, 2, 3, 4, 5, 6, 7, 8, 1, 2, 3, 4, 5, 6, 7, 8]) :=
  ⟨toy_inverts.desD_desE, toy_inverts.desE_desD, by decide, by decide⟩

/-- A block with its top bit set and one without. -/
theorem witness_DoublingIsBigEndianShiftWithRb :
    2 ^ 63 ≤ beNat (padTo 8 [0x80]) ∧ ¬2 ^ 63 ≤ beNat (padTo 8 [0x7f]) ∧ 2 ^ 127 ≤ beNat (padTo 16 [0x80]) ∧
      ¬2 ^ 127 ≤ beNat (padTo 16 [0x7f]) := by decide

theorem witness_SubkeysAreEqualExactlyForZeroL : ((ready .tdes3 0 0 []).ctx .session).kvalid = true := by rfl

theorem witness_DeriveCommand :
    ((running 0x27 State.reset).pend.toNat % 16 = 7 ∧ (running 0x27 State.reset).pend.toNat / 32 ≠ 0) ∧
      ((ready .aes 0 0 []).ctx .explicit).kvalid = true ∧ (State.reset.ctx .explicit).kvalid = false := by decide

/-- Two states that share TYPE and KEY only. -/
theorem witness_DeriveIsDeterministic :
    ((ready .des 0 0 plain).ctx .session).kvalid = true ∧ ((ready .des 9 9 []).ctx .session).kvalid = true ∧
      ((ready .des 0 0 plain).ctx .session).keyType = ((ready .des 9 9 []).ctx .session).keyType ∧
      ((ready .des 0 0 plain).ctx .session).key = ((ready .des 9 9 []).ctx .session).key := ⟨rfl, rfl, rfl, rfl⟩

/-- V-CBC-23: the last block of BUF. -/
theorem witness_Cbc1CompletesInPlace :
    ((ready .des 248 0 []).ctx .explicit).kvalid = true ∧
      (ready .des 248 0 []).off.toNat + ((ready .des 248 0 []).ctx .explicit).keyType.blockSize ≤
        (ready .des 248 0 []).params.bufBytes := by decide

/-- Two AES blocks at the end of BUF, and no block. -/
theorem witness_CbcnCompletesAsStandardCbc :
    (((ready .aes 224 32 []).ctx .session).kvalid = true ∧
      (ready .aes 224 32 []).len.toNat % ((ready .aes 224 32 []).ctx .session).keyType.blockSize = 0 ∧
      (ready .aes 224 32 []).off.toNat + (ready .aes 224 32 []).len.toNat ≤ (ready .aes 224 32 []).params.bufBytes) ∧
      (ready .des 256 0 []).len.toNat % ((ready .des 256 0 []).ctx .session).keyType.blockSize = 0 ∧
      (ready .des 256 0 []).off.toNat + (ready .des 256 0 []).len.toNat ≤ (ready .des 256 0 []).params.bufBytes := by
  decide

theorem witness_CbcnEqualsRepeatedCbc1 :
    (ready .tdes2 0 16 plain).params.wellFormed = true ∧ ((ready .tdes2 0 16 plain).ctx .session).kvalid = true ∧
      (ready .tdes2 0 16 plain).len.toNat % ((ready .tdes2 0 16 plain).ctx .session).keyType.blockSize = 0 ∧
      (ready .tdes2 0 16 plain).off.toNat + (ready .tdes2 0 16 plain).len.toNat ≤
        (ready .tdes2 0 16 plain).params.bufBytes := by decide

theorem witness_CbcnOfNothingOnlyResetsTheIv :
    ((ready .des 256 0 []).ctx .session).kvalid = true ∧ (ready .des 256 0 []).len = 0 ∧
      (ready .des 256 0 []).off.toNat ≤ (ready .des 256 0 []).params.bufBytes ∧
      (ready .des 256 0 []).gen = .legacy ∧ { ready .des 256 0 [] with gen := .new }.gen = .new := by decide

/-- The checks pass; each of the three fails alone; the IV is carried, on context 0 and with GEN = New, with a block and
with none; CBC1 on the last block of BUF. -/
theorem witness_LegacyResetIsCbcnOnTheSessionOnly :
    ((ready .des 0 8 plain).gen = .legacy ∧ (ready .des 0 8 plain).ctx1.kvalid = true ∧
      (ready .des 0 8 plain).len.toNat % (ready .des 0 8 plain).ctx1.keyType.blockSize = 0 ∧
      (ready .des 0 8 plain).off.toNat + (ready .des 0 8 plain).len.toNat ≤ (ready .des 0 8 plain).params.bufBytes) ∧
      State.reset.ctx1.kvalid = false ∧
      (ready .des 0 7 []).len.toNat % (ready .des 0 7 []).ctx1.keyType.blockSize ≠ 0 ∧
      (ready .des 249 8 []).params.bufBytes < (ready .des 249 8 []).off.toNat + (ready .des 249 8 []).len.toNat ∧
      (∀ c : Ctx, c = .explicit ∨ c = .session → ((ready .des 0 8 plain).ctx c).kvalid = true ∧
        (ready .des 0 8 plain).len.toNat % ((ready .des 0 8 plain).ctx c).keyType.blockSize = 0) ∧
      { ready .des 0 8 plain with gen := .new }.gen = .new ∧ (ready .des 0 8 plain).len ≠ 0 ∧
      ((ready .des 256 0 []).len = 0 ∧
        (ready .des 256 0 []).off.toNat + (ready .des 256 0 []).len.toNat ≤ (ready .des 256 0 []).params.bufBytes) ∧
      (ready .des 248 0 []).off.toNat + ((ready .des 248 0 []).ctx .session).keyType.blockSize ≤
        (ready .des 248 0 []).params.bufBytes := by
  refine ⟨by decide, by decide, by decide, by decide, ?_, rfl, by decide, by decide, by decide⟩
  rintro c -
  cases c <;> decide

/-- An IV that differs in byte 8 alone; a CBCN that takes the legacy reset, and one that does not. -/
theorem witness_EightByteBlocksUseEightIvBytes :
    Instr.usesContext (.cbcn .session .send .encipher) = some .session ∧
      ((ready .des 0 0 []).ctx .session).keyType.blockSize = 8 ∧
      ((padTo 16 [0xa0, 0xa1, 0xa2, 0xa3, 0xa4, 0xa5, 0xa6, 0xa7, 0xff]).toList.take 8 =
        ((ready .des 0 0 []).ctx .session).iv.toList.take 8) ∧
      (match exec (.cbcn .session .send .encipher) (ready .des 0 0 []) with
        | .next t => t.err
        | _ => 1) = 0 ∧ (ready .des 0 0 []).gen = .legacy ∧
      (match exec (.cbcn .session .send .encipher) (ready .des 0 7 []) with
        | .next t => t.err
        | _ => 0) ≠ 0 := by decide

theorem witness_SendThenReceiveRoundTrips :
    toy.Inverts ∧ ((ready .tdes3 3 16 plain).ctx .explicit).kvalid = true ∧
      (ready .tdes3 3 16 plain).len.toNat % ((ready .tdes3 3 16 plain).ctx .explicit).keyType.blockSize = 0 ∧
      (ready .tdes3 3 16 plain).off.toNat + (ready .tdes3 3 16 plain).len.toNat ≤
        (ready .tdes3 3 16 plain).params.bufBytes ∧ 0 < (ready .tdes3 3 16 plain).len.toNat :=
  ⟨toy_inverts, by decide, by decide, by decide, by decide⟩

theorem witness_FailedCommandChangesOnlyStatus :
    ∃ t, engineStep (running 0 State.reset) = .next t ∧ t.err ≠ 0 := ⟨_, rfl, by decide⟩

theorem witness_EngineNeverWritesItsOperands :
    Instr.usesContext (.derive .explicit) ≠ some .session ∧ Instr.usesContext .crc16 ≠ some .session := by decide

theorem witness_CrcResultChangesOnlyOnSuccessfulCrc : ∃ t, engineStep (running 1 (window 0 0)) = .next t := ⟨_, rfl⟩

theorem witness_InterruptFollowsEnableAndDone : State.reset.busy = false ∧ (0x2 : Word).getLsbD 1 = true := by decide

/-- A step for each change of BUSY and of DONE. -/
theorem witness_BusyAndDoneChangeOnlyAsStated :
    (∃ t, step { State.reset with script := [.host (.write 0x00C 1)] } = .next t ∧ t.busy = true) ∧
      (∃ t, step (running 0 State.reset) = .next t ∧ t.busy = false ∧ t.done = true) ∧
      ∃ t, step { State.reset with done := true, script := [.host (.write 0x008 2)] } = .next t ∧ t.done = false :=
  ⟨⟨_, rfl, by decide⟩, ⟨_, rfl, by decide, by decide⟩, _, rfl, by decide⟩

/-- A step that sets OVR, one that clears it, and one that meets a host's fault. -/
theorem witness_OverrunIsStickyUntilCleared :
    (∃ t, step { running 1 State.reset with script := [.host (.write 0x010 0)] } = .next t ∧ t.ovr = true) ∧
      (∃ t, step { State.reset with ovr := true, script := [.host (.write 0x008 8)] } = .next t ∧ t.ovr = false) ∧
      ∃ t, step { State.reset with hostFault := true } = .next t := ⟨⟨_, rfl, by decide⟩, ⟨_, rfl, by decide⟩, _, rfl⟩

theorem witness_CommandAcceptance : State.reset.busy = false := by rfl

theorem witness_HostCannotDisturbARunningCommand : (running 5 (ready .des 0 8 plain)).busy = true := by rfl

theorem witness_WrittenInputGivesDefinedResult :
    State.written (ready .des 0 8 plain) (ready .des 0 8 plain).off.toNat
      (inputLength (.cbcn .explicit .send .encipher) (ready .des 0 8 plain)) := by
  intro i hi
  have hi : i < 8 := hi
  rcases (by omega : i = 0 ∨ i = 1 ∨ i = 2 ∨ i = 3 ∨ i = 4 ∨ i = 5 ∨ i = 6 ∨ i = 7) with
    rfl | rfl | rfl | rfl | rfl | rfl | rfl | rfl <;> rfl

theorem witness_MisalignedAccessIsAnsweredWithError :
    (0x000E : Half).toNat % 4 ≠ 0 ∧ (0x0001 : Half).toNat % 4 ≠ 0 ∧ (0xFFFC : Half).toNat % 4 = 0 := by decide

/-- The last BUF word and the last K2 word. -/
theorem witness_RegisterMapIsABijection :
    Params.wellFormed ⟨256⟩ = true ∧ Reg.buf 63 ≠ .unmapped ∧ 63 < 256 / 4 ∧ Reg.k2 .session 3 ≠ .unmapped ∧
      (0x80FC : Half).toNat % 4 = 0 ∧ regAt ⟨256⟩ 0x80FC ≠ .unmapped := by decide

theorem witness_WriteWhileBusyIsIgnored :
    (running 1 State.reset).busy = true ∧ ((0x000C : Half).toNat % 4 = 0 ∧ (0x000C : Half) ≠ 0x008) ∧
      (0x0008 : Half).toNat % 4 = 0 := by decide

theorem witness_StatusWriteClearsDoneAndOverrun :
    (0x2 : Word).getLsbD 1 = true ∧ (0x2 : Word).getLsbD 3 = false ∧ (0x8 : Word).getLsbD 1 = false ∧
      (0x8 : Word).getLsbD 3 = true := by decide

theorem witness_ReadsHaveNoSideEffect :
    State.reset.busy = false ∧
      ((running 1 State.reset).busy = true ∧
        (regAt (running 1 State.reset).params 0x008).hiddenWhileBusy = false) := by decide

/-- An idle and a busy state; a first and a last word that nothing occupies, and one inside a context's range. -/
theorem witness_RegistersReadTheirFields :
    State.reset.params.wellFormed = true ∧ State.reset.busy = false ∧ (running 1 State.reset).busy = true ∧
      unoccupied State.reset.params.bufBytes (0x0020 : Half).toNat ∧
      unoccupied State.reset.params.bufBytes (0x0104 : Half).toNat ∧
      unoccupied State.reset.params.bufBytes (0xFFFC : Half).toNat ∧ (0xFFFC : Half).toNat % 4 = 0 := by decide

theorem witness_OperandRegisterWrites : State.reset.busy = false := by rfl

/-- A first and a last word of each range; the words next to them are occupied. -/
theorem witness_ReadOnlyWordsIgnoreWrites :
    State.reset.busy = false ∧ (0x0160 : Half).toNat % 4 = 0 ∧
      (0x160 ≤ (0x0160 : Half).toNat ∧ (0x017C : Half).toNat < 0x180) ∧
      (0x260 ≤ (0x0260 : Half).toNat ∧ (0x027C : Half).toNat < 0x280) ∧
      (∀ o ∈ [0x020, 0x0FC, 0x104, 0x11C, 0x138, 0x13C, 0x150, 0x15C, 0x180, 0x1FC, 0x204, 0x21C, 0x238, 0x23C, 0x250,
        0x25C, 0x280, 0x7FFC, 0x8100, 0xFFFC], unoccupied State.reset.params.bufBytes o) ∧
      ∀ o ∈ [0x01C, 0x100, 0x120, 0x134, 0x140, 0x14C, 0x160, 0x17C, 0x200, 0x220, 0x234, 0x240, 0x24C, 0x260, 0x27C,
        0x8000, 0x80FC], ¬unoccupied State.reset.params.bufBytes o := by decide

theorem witness_KeycfgWriteCommitsTheKey : (ready .des 0 0 []).busy = false := by rfl

theorem witness_KeyWriteInvalidatesTheKey : (ready .aes 0 0 []).busy = false := by rfl

/-- Two states that differ in key material. -/
theorem witness_KeyMaterialIsNotReadable :
    ∃ s₁ s₂ : State, s₁ ≠ s₂ ∧ s₁.eraseKeys = s₂.eraseKeys :=
  ⟨ready .des 0 0 [], { ready .des 0 0 [] with ctx0 := { keyed .des with key := Bytes.zero 24 } }, by decide, by decide⟩

theorem witness_IvWordsPackBytesLittleEndian :
    (ready .des 0 0 []).busy = false ∧ (0x024C : Half) = BitVec.ofNat 16 (0x140 + 0x100 * Ctx.session.code + 4 * 3) := by
  decide

theorem witness_SubkeyWordsReadTheSubkeys :
    State.reset.busy = false ∧ (State.reset.ctx .explicit).Consistent Config.primitives ∧
      (State.reset.ctx .explicit).skvalid = false :=
  ⟨rfl, ⟨nofun, nofun, nofun, fun _ => rfl, fun _ => rfl⟩, rfl⟩

/-- The last word of BUF. -/
theorem witness_BufWindowReadsAndWritesBuf :
    State.reset.busy = false ∧ State.reset.params.wellFormed = true ∧ 63 < State.reset.params.bufBytes / 4 ∧
      (0x80FC : Half) = BitVec.ofNat 16 (0x8000 + 4 * 63) := by decide

/-- A command in progress, and the engine's turn after the reset. -/
theorem witness_ResetTransition :
    { running 5 (ready .des 0 8 plain) with script := [.reset, .engine] }.script = .reset :: [.engine] := by rfl

theorem witness_EveryStepKeepsSubkeyValidity :
    State.reset.SubkeysValid ∧ ∃ t, step State.reset = .next t :=
  ⟨fun c => by cases c <;> exact ⟨nofun, nofun, nofun, fun _ => rfl, fun _ => rfl⟩, _, rfl⟩

/-- A state with a command in progress. -/
theorem witness_EveryStepKeepsSoundness :
    (running 1 State.reset).Sound ∧ ∃ t, step (running 1 State.reset) = .next t :=
  ⟨⟨by decide, reset_buf_wf, nofun, by decide, fun _ => rfl, fun _ => rfl⟩, _, rfl⟩

end Sys2Proof.Tests
end

section
/-! PROOFS of the statements of 10_state.md, first part: the ways in which a command can end, said once, and what every
command, every access and every step keeps. -/

namespace Sys2Proof.Machine

/-! ### How a command ends -/

/-- The four ways in which the command `i`, started in `s`, can end (60_exceptions.md R235, R236): with an error and no
other effect; a CRC command with a result; a chaining command with new bytes in BUF and a new IV; DERIVE with the
subkeys of the committed key. `exec_commandEnd` says that there are no others. -/
inductive CommandEnd (i : Instr) (s : State) : State → Prop
  | failed (e : ErrCode) : CommandEnd i s (raiseError e s)
  | checksum (hi : i = .crc16 ∨ i = .crc16a ∨ i = .crc32 ∨ i = .crc32a) (r : Word) (m : Memory) :
      CommandEnd i s (complete (setCrc r { s with buf := m }))
  | chained (c : Ctx) (hi : Instr.usesContext i = some c) (iv : Bytes 16) (m : Memory) :
      CommandEnd i s (complete (setIv c iv { s with buf := m }))
  | derived (c : Ctx) (hi : i = .derive c) (hk : (s.ctx c).kvalid = true) :
      CommandEnd i s (complete (setSubkeys c (subkey1 Config.primitives (s.ctx c).keyType (s.ctx c).key)
        (subkey2 Config.primitives (s.ctx c).keyType (s.ctx c).key) s))

@[simp] theorem setIv_setIv (c : Ctx) (v w : Bytes 16) (s : State) : setIv c v (setIv c w s) = setIv c v s := by
  simp [setIv]

theorem setIv_buf_update (c : Ctx) (v : Bytes 16) (s : State) (m : Memory) :
    { setIv c v s with buf := m } = setIv c v { s with buf := m } := by cases c <;> rfl

/-- Whatever the legacy reset did to the IV, the IV that a chaining command leaves overwrites it (R195, R196). -/
theorem setIv_legacyReset (c : Ctx) (v : Bytes 16) (s : State) (m : Memory) :
    setIv c v { legacyReset c s with buf := m } = setIv c v { s with buf := m } := by
  rcases legacyReset_cases c s with h | ⟨rfl, -, h⟩
  · rw [h]
  · rw [h, setIv_buf_update, setIv_setIv]

theorem checksumCommand_commandEnd {i : Instr} (hi : i = .crc16 ∨ i = .crc16a ∨ i = .crc32 ∨ i = .crc32a) (k : Nat)
    (crc : List Byte → Word) (s : State) : CommandEnd i s (checksumCommand k crc s) := by
  rcases checksumCommand_cases k crc s with ⟨-, h⟩ | ⟨-, h⟩ <;> rw [h]
  · exact .failed .bounds
  · exact .checksum hi _ _

theorem cbc1Command_commandEnd (c : Ctx) (d : Dir) (o : CipherOp) (s : State) :
    CommandEnd (.cbc1 c d o) s (cbc1Command Config.primitives c d o s) := by
  rcases cbc1Command_cases Config.primitives c d o s with ⟨-, h⟩ | ⟨-, -, h⟩ | ⟨-, -, r, -, h⟩ <;> rw [h]
  · exact .failed .nokey
  · exact .failed .bounds
  · exact .chained c rfl _ _

theorem cbcnCommand_commandEnd (c : Ctx) (d : Dir) (o : CipherOp) (s : State) :
    CommandEnd (.cbcn c d o) s (cbcnCommand Config.primitives c d o s) := by
  rcases cbcnCommand_cases Config.primitives c d o s with
    ⟨-, h⟩ | ⟨-, -, h⟩ | ⟨-, -, -, h⟩ | ⟨-, -, -, r, hr, h⟩ <;> rw [h]
  · exact .failed .nokey
  · exact .failed .length
  · exact .failed .bounds
  · obtain ⟨m, hm⟩ := cbcLoop_writes_buf_only Config.primitives (s.ctx c).keyType (s.ctx c).key d o
      (s.len.toNat / (s.ctx c).keyType.blockSize) s.off.toNat
      (chainIv ((legacyReset c s).ctx c) (s.ctx c).keyType.blockSize) (legacyReset c s)
    rw [← hr] at hm
    rw [hm, setIvFirst, setIv_legacyReset]
    exact .chained c rfl _ m

theorem deriveCommand_commandEnd (c : Ctx) (s : State) :
    CommandEnd (.derive c) s (deriveCommand Config.primitives c s) := by
  rcases deriveCommand_cases Config.primitives c s with ⟨-, h⟩ | ⟨hk, h⟩ <;> rw [h]
  · exact .failed .nokey
  · exact .derived c rfl hk

/-- Every command answers a next state, in one of the four ways of `CommandEnd`. -/
theorem exec_commandEnd (i : Instr) (s : State) : ∃ t, exec i s = .next t ∧ CommandEnd i s t := by
  cases i with
  | crc16 => exact ⟨_, rfl, checksumCommand_commandEnd (by simp) 0 crc16Word s⟩
  | crc16a => exact ⟨_, rfl, checksumCommand_commandEnd (by simp) 2 crc16Word s⟩
  | crc32 => exact ⟨_, rfl, checksumCommand_commandEnd (by simp) 0 crc32 s⟩
  | crc32a => exact ⟨_, rfl, checksumCommand_commandEnd (by simp) 4 crc32 s⟩
  | cbc1 c d o => exact ⟨_, rfl, cbc1Command_commandEnd c d o s⟩
  | cbcn c d o => exact ⟨_, rfl, cbcnCommand_commandEnd c d o s⟩
  | derive c => exact ⟨_, rfl, deriveCommand_commandEnd c s⟩

/-- The engine's step answers a next state: the end of the command in PEND, or ERR_OPCODE (R235). -/
theorem engineStep_commandEnd (s : State) :
    ∃ t, engineStep s = .next t ∧
      ((∃ i, decode s.pend = .ok i ∧ CommandEnd i s t) ∨ t = raiseError .opcode s) := by
  rcases engineStep_cases s with ⟨i, hi, h⟩ | ⟨e, -, h⟩
  · obtain ⟨t, ht, hend⟩ := exec_commandEnd i s
    exact ⟨t, h.trans ht, .inl ⟨i, hi, hend⟩⟩
  · exact ⟨_, h, .inr rfl⟩

/-- `t` is `s` but for what a command may write: IV, K1, K2, SKVALID, BUF, CRCR, CZ and ERR, with BUSY = 0 and
DONE = 1. -/
def EngineFrame (s t : State) : Prop :=
  t = { s with
    ctx0 := { s.ctx0 with iv := t.ctx0.iv, k1 := t.ctx0.k1, k2 := t.ctx0.k2, skvalid := t.ctx0.skvalid },
    ctx1 := { s.ctx1 with iv := t.ctx1.iv, k1 := t.ctx1.k1, k2 := t.ctx1.k2, skvalid := t.ctx1.skvalid },
    buf := t.buf, crcr := t.crcr, cz := t.cz, err := t.err, busy := false, done := true }

theorem engineFrame_raiseError (e : ErrCode) (s : State) : EngineFrame s (raiseError e s) := rfl

theorem CommandEnd.engineFrame {i : Instr} {s t : State} (h : CommandEnd i s t) : EngineFrame s t := by
  cases h with
  | failed e => exact engineFrame_raiseError e s
  | checksum hi r m => rfl
  | chained c hi iv m => cases c <;> rfl
  | derived c hi hk => cases c <;> rfl

/-- A command leaves the context it does not select as it was. -/
theorem CommandEnd.ctx_other {i : Instr} {s t : State} (h : CommandEnd i s t) {c : Ctx}
    (hc : Instr.usesContext i ≠ some c) : t.ctx c = s.ctx c := by
  cases h with
  | failed e => exact ctx_raiseError e s c
  | checksum hi r m => rfl
  | chained d hi iv m =>
    have hd : d ≠ c := fun hd => hc (hd ▸ hi)
    exact ctx_setCtx_other _ _ hd
  | derived d hi hk =>
    have hd : d ≠ c := fun hd => hc (by rw [hi, hd]; rfl)
    exact ctx_setCtx_other _ _ hd

theorem exec_frame {i : Instr} {s t : State} (h : exec i s = .next t) : EngineFrame s t := by
  obtain ⟨u, hu, hend⟩ := exec_commandEnd i s
  obtain rfl : u = t := Host.Outcome.next.inj (hu.symm.trans h)
  exact hend.engineFrame

theorem engineStep_frame {s t : State} (h : engineStep s = .next t) : EngineFrame s t := by
  obtain ⟨u, hu, hend⟩ := engineStep_commandEnd s
  obtain rfl : u = t := Host.Outcome.next.inj (hu.symm.trans h)
  rcases hend with ⟨i, -, hi⟩ | rfl
  · exact hi.engineFrame
  · exact engineFrame_raiseError .opcode s

/-! ### The subkey invariant (R47) -/

/-- A context without valid subkeys and with K1, K2 cleared is consistent whatever its key: the state after every key
write (R42, R43) and after reset. -/
theorem KeyContext.consistent_of_cleared {P : Primitives} {k : KeyContext} (hs : k.skvalid = false)
    (h1 : k.k1 = Bytes.zero 16) (h2 : k.k2 = Bytes.zero 16) : k.Consistent P where
  committed h := absurd h (by simp [hs])
  k1_derived h := absurd h (by simp [hs])
  k2_derived h := absurd h (by simp [hs])
  k1_cleared _ := h1
  k2_cleared _ := h2

/-- The invariant does not speak of the IV. -/
theorem KeyContext.Consistent.withIv {P : Primitives} {k : KeyContext} (h : k.Consistent P) (iv : Bytes 16) :
    { k with iv := iv }.Consistent P where
  committed := h.committed
  k1_derived := h.k1_derived
  k2_derived := h.k2_derived
  k1_cleared := h.k1_cleared
  k2_cleared := h.k2_cleared

/-- DERIVE on a committed key makes the context consistent (R177). -/
theorem KeyContext.consistent_derived {P : Primitives} {k : KeyContext} (hk : k.kvalid = true) :
    { k with k1 := subkey1 P k.keyType k.key, k2 := subkey2 P k.keyType k.key, skvalid := true }.Consistent P where
  committed _ := hk
  k1_derived _ := rfl
  k2_derived _ := rfl
  k1_cleared h := absurd h (by simp)
  k2_cleared h := absurd h (by simp)

/-- A write to one context keeps the invariant when the context written is consistent. -/
theorem State.SubkeysValid.setCtx {s : State} (h : s.SubkeysValid) (c : Ctx) {k : KeyContext}
    (hk : k.Consistent Config.primitives) : (s.setCtx c k).SubkeysValid := by
  intro d
  by_cases hcd : c = d
  · subst hcd
    rwa [ctx_setCtx_same]
  · rw [ctx_setCtx_other s k hcd]
    exact h d

theorem State.SubkeysValid.setIv {s : State} (h : s.SubkeysValid) (c : Ctx) (iv : Bytes 16) :
    (setIv c iv s).SubkeysValid := h.setCtx c ((h c).withIv iv)

/-- A write to any register keeps the invariant: a key write drops the subkeys, an IV write leaves them. -/
theorem State.SubkeysValid.writeReg {s : State} (h : s.SubkeysValid) (v : Word) (r : Reg) :
    (writeReg v s r).SubkeysValid := by
  cases r with
  | keycfg c => exact h.setCtx c (KeyContext.consistent_of_cleared rfl rfl rfl)
  | key c w => exact h.setCtx c (KeyContext.consistent_of_cleared rfl rfl rfl)
  | iv c w => exact h.setIv c _
  | id | ctrl | status | cmd | off | len | crcr | bufsize | k1 | k2 | buf | unmapped => exact h

theorem State.SubkeysValid.hostAccess {s : State} (h : s.SubkeysValid) (a : Access) :
    (hostAccess a s).SubkeysValid := by
  cases a with
  | read addr =>
    rcases busRead_cases addr s with ⟨-, e⟩ | ⟨-, -, -, e⟩ | ⟨-, -, e⟩ <;> rw [Machine.hostAccess, e] <;> exact h
  | write addr v =>
    rcases busWrite_cases addr v s with ⟨-, e⟩ | ⟨-, -, -, e⟩ | ⟨-, -, -, e⟩ | ⟨-, -, e⟩ <;> rw [Machine.hostAccess, e]
    · exact h
    · exact h
    · exact h
    · exact h.writeReg v _

theorem State.SubkeysValid.commandEnd {i : Instr} {s t : State} (h : s.SubkeysValid) (ht : CommandEnd i s t) :
    t.SubkeysValid := by
  cases ht with
  | failed e => exact h
  | checksum hi r m => exact h
  | chained c hi iv m => exact State.SubkeysValid.setIv (s := { s with buf := m }) h c iv
  | derived c hi hk => exact h.setCtx c (KeyContext.consistent_derived hk)

theorem State.SubkeysValid.engineStep {s t : State} (h : s.SubkeysValid) (ht : engineStep s = .next t) :
    t.SubkeysValid := by
  obtain ⟨u, hu, hend⟩ := engineStep_commandEnd s
  obtain rfl : u = t := Host.Outcome.next.inj (hu.symm.trans ht)
  rcases hend with ⟨i, -, hi⟩ | rfl
  · exact h.commandEnd hi
  · exact h

theorem KeyContext.reset_consistent (P : Primitives) : KeyContext.reset.Consistent P :=
  KeyContext.consistent_of_cleared rfl rfl rfl

theorem resetBlock_subkeysValid (s : State) : (resetBlock s).SubkeysValid := fun c => by
  rw [ctx_resetBlock]
  exact KeyContext.reset_consistent _

/-- Settles O58: the invariant holds after an access, a reset and a command's end, and an idle turn changes no
context. -/
theorem everyStepKeepsSubkeyValidity : Obligations.EveryStepKeepsSubkeyValidity := by
  intro s t hs hstep
  rcases step_cases s with ⟨a, rest, -, e⟩ | ⟨rest, -, e⟩ | ⟨rest, -, ⟨-, e⟩ | ⟨-, e⟩⟩ <;> rw [e] at hstep
  · obtain rfl := Host.Outcome.next.inj hstep
    exact State.SubkeysValid.hostAccess (s := { s with script := rest }) hs a
  · obtain rfl := Host.Outcome.next.inj hstep
    exact resetBlock_subkeysValid _
  · exact State.SubkeysValid.engineStep (s := { s with script := rest }) hs hstep
  · obtain rfl := Host.Outcome.next.inj hstep
    exact hs

/-! ### What the engine writes -/

/-- Settles O34, by the ways in which a command ends. -/
theorem engineNeverWritesItsOperands : Obligations.EngineNeverWritesItsOperands := by
  intro i s
  obtain ⟨t, ht, hend⟩ := exec_commandEnd i s
  have hframe : EngineFrame s t := hend.engineFrame
  exact ⟨t, ht, by rw [hframe], by rw [hframe], hframe, fun c hc => hend.ctx_other hc⟩

/-- Settles O35: of the ways in which a command ends, only `CommandEnd.checksum` writes CRCR and CZ. -/
theorem crcResultChangesOnlyOnSuccessfulCrc : Obligations.CrcResultChangesOnlyOnSuccessfulCrc := by
  intro s t h
  obtain ⟨u, hu, hend⟩ := engineStep_commandEnd s
  obtain rfl : u = t := Host.Outcome.next.inj (hu.symm.trans h)
  rcases hend with ⟨i, hdec, hi⟩ | rfl
  · cases hi with
    | failed e => exact .inl ⟨rfl, rfl⟩
    | checksum hi r m => exact .inr ⟨rfl, rfl, i, hdec, hi⟩
    | chained c hi iv m => exact .inl ⟨by simp, by simp⟩
    | derived c hi hk => exact .inl ⟨by simp, by simp⟩
  · exact .inl ⟨rfl, rfl⟩

end Sys2Proof.Machine
end

section
/-! PROOFS of the statements of 10_state.md, second part: the register map (R22, 20_memory.md R83), and one rule for
each kind of access, from which the statements about single registers follow. -/

namespace Sys2Proof.Machine

/-! ### The register map -/

/-- `r` is a register of the aperture of a block with parameters `p`: every register of R22, and the BUF words below
BUF_BYTES. -/
def Reg.Mapped (p : Params) : Reg → Prop
  | .unmapped => False
  | .buf j => j < p.bufBytes / 4 ∧ p.bufBytes ≤ 32768
  | _ => True

theorem regAt_ctx (p : Params) (c : Ctx) {addr : Half} {o : Nat} (ho : o < 0x80) (h : addr.toNat = ctxBase c + o) :
    regAt p addr = ctxRegAt c o := by
  cases c with
  | explicit =>
    have h : addr.toNat = 0x100 + o := h
    rw [regAt, h, if_neg (by omega), if_pos (by omega), Nat.add_sub_cancel_left]
  | session =>
    have h : addr.toNat = 0x200 + o := h
    rw [regAt, h, if_neg (by omega), if_neg (by omega), if_pos (by omega), Nat.add_sub_cancel_left]

theorem ctxBase_le (c : Ctx) : ctxBase c ≤ 0x200 := by cases c <;> decide

theorem ctxBase_aligned (c : Ctx) : ctxBase c % 4 = 0 := by cases c <;> decide

/-- A context's register is found at its offset when its place among the context's 0x80 bytes is right. -/
theorem regAt_ctxBase_add (p : Params) (c : Ctx) {o : Nat} {r : Reg} (ho : o < 0x80) (h4 : o % 4 = 0)
    (hr : ctxRegAt c o = r) :
    ctxBase c + o < 65536 ∧ (ctxBase c + o) % 4 = 0 ∧ regAt p (BitVec.ofNat 16 (ctxBase c + o)) = r := by
  have hle := ctxBase_le c
  have hal := ctxBase_aligned c
  refine ⟨by omega, by omega, ?_⟩
  rw [regAt_ctx p c ho, hr]
  rw [BitVec.toNat_ofNat, Nat.mod_eq_of_lt (by omega)]

theorem ctxRegAt_key : ∀ (c : Ctx) (w : Fin 6), ctxRegAt c (0x20 + 4 * w.val) = .key c w := by
  intro c w; cases c <;> decide +revert

theorem ctxRegAt_iv : ∀ (c : Ctx) (w : Fin 4), ctxRegAt c (0x40 + 4 * w.val) = .iv c w := by
  intro c w; cases c <;> decide +revert

theorem ctxRegAt_k1 : ∀ (c : Ctx) (w : Fin 4), ctxRegAt c (0x60 + 4 * w.val) = .k1 c w := by
  intro c w; cases c <;> decide +revert

theorem ctxRegAt_k2 : ∀ (c : Ctx) (w : Fin 4), ctxRegAt c (0x70 + 4 * w.val) = .k2 c w := by
  intro c w; cases c <;> decide +revert

theorem regAt_bufWord (p : Params) {j : Nat} (hj : j < p.bufBytes / 4) (hp : p.bufBytes ≤ 32768) :
    regAt p (BitVec.ofNat 16 (0x8000 + 4 * j)) = .buf j := by
  have ho : (BitVec.ofNat 16 (0x8000 + 4 * j)).toNat = 0x8000 + 4 * j := by
    rw [BitVec.toNat_ofNat, Nat.mod_eq_of_lt (by omega)]
  have hdiv : (0x8000 + 4 * j - 0x8000) / 4 = j := by omega
  rw [regAt, ho, if_neg (by omega), if_neg (by omega), if_neg (by omega), hdiv, if_pos ⟨by omega, hj⟩]

/-- Every register of the aperture is at its offset (R22, R83). -/
theorem Reg.Mapped.at_offset {p : Params} {r : Reg} (h : r.Mapped p) :
    r.offset < 65536 ∧ r.offset % 4 = 0 ∧ regAt p (BitVec.ofNat 16 r.offset) = r := by
  cases r with
  | unmapped => exact h.elim
  | buf j =>
    obtain ⟨hj, hp⟩ := h
    exact ⟨by simp only [Reg.offset]; omega, by simp only [Reg.offset]; omega, regAt_bufWord p hj hp⟩
  | keycfg c => exact regAt_ctxBase_add p c (o := 0) (by omega) rfl rfl
  | key c w =>
    rw [Reg.offset, Nat.add_assoc]
    exact regAt_ctxBase_add p c (by omega) (by omega) (ctxRegAt_key c w)
  | iv c w =>
    rw [Reg.offset, Nat.add_assoc]
    exact regAt_ctxBase_add p c (by omega) (by omega) (ctxRegAt_iv c w)
  | k1 c w =>
    rw [Reg.offset, Nat.add_assoc]
    exact regAt_ctxBase_add p c (by omega) (by omega) (ctxRegAt_k1 c w)
  | k2 c w =>
    rw [Reg.offset, Nat.add_assoc]
    exact regAt_ctxBase_add p c (by omega) (by omega) (ctxRegAt_k2 c w)
  | id | ctrl | status | cmd | off | len | crcr | bufsize => exact ⟨by decide, by decide, rfl⟩

theorem globalRegAt_offset : ∀ o < 0x20, o % 4 = 0 → (globalRegAt o).offset = o := by decide

theorem ctxRegAt_offset (c : Ctx) {o : Nat} (h4 : o % 4 = 0) (h : ctxRegAt c o ≠ .unmapped) :
    (ctxRegAt c o).offset = ctxBase c + o := by
  unfold ctxRegAt at h ⊢
  split_ifs at h ⊢ <;> first | exact absurd rfl h | (simp only [Reg.offset]; omega)

/-- An aligned address that names a register is that register's offset (R22, R83). -/
theorem offset_regAt (p : Params) {addr : Half} (h4 : addr.toNat % 4 = 0) (h : regAt p addr ≠ .unmapped) :
    (regAt p addr).offset = addr.toNat := by
  by_cases hg : addr.toNat < 0x20
  · rw [regAt, if_pos hg]
    exact globalRegAt_offset _ hg h4
  by_cases h0 : 0x100 ≤ addr.toNat ∧ addr.toNat < 0x180
  · have e : addr.toNat = ctxBase .explicit + (addr.toNat - 0x100) := by simp only [ctxBase, Ctx.code]; omega
    rw [regAt_ctx p .explicit (by omega) e] at h ⊢
    rw [ctxRegAt_offset _ (by omega) h, ← e]
  by_cases h1 : 0x200 ≤ addr.toNat ∧ addr.toNat < 0x280
  · have e : addr.toNat = ctxBase .session + (addr.toNat - 0x200) := by simp only [ctxBase, Ctx.code]; omega
    rw [regAt_ctx p .session (by omega) e] at h ⊢
    rw [ctxRegAt_offset _ (by omega) h, ← e]
  rw [regAt, if_neg hg, if_neg h0, if_neg h1] at h ⊢
  split_ifs at h ⊢ with hb
  · simp only [Reg.offset]; omega
  · exact absurd rfl h

/-- The address of a register is the only aligned one that names it. -/
theorem regAt_eq_iff (p : Params) {addr : Half} {r : Reg} (h4 : addr.toNat % 4 = 0) (hr : r.Mapped p) :
    regAt p addr = r ↔ addr = BitVec.ofNat 16 r.offset := by
  constructor
  · rintro rfl
    have hne : regAt p addr ≠ .unmapped := fun e => by rw [e] at hr; exact hr
    rw [offset_regAt p h4 hne, BitVec.ofNat_toNat, BitVec.setWidth_eq]
  · rintro rfl
    exact hr.at_offset.2.2

theorem Params.bufBytes_le_of_wellFormed {p : Params} (h : p.wellFormed = true) : p.bufBytes ≤ 32768 := by
  simp only [Params.wellFormed, Bool.and_eq_true, decide_eq_true_eq] at h
  exact h.2

/-- Settles O43: `Reg.Mapped.at_offset` is one direction of the map, `offset_regAt` the other. -/
theorem registerMapIsABijection : Obligations.RegisterMapIsABijection := by
  intro p hp
  refine ⟨fun r hne hbuf => Reg.Mapped.at_offset ?_, fun addr => offset_regAt p⟩
  cases r with
  | unmapped => exact hne rfl
  | buf j => exact ⟨hbuf j rfl, Params.bufBytes_le_of_wellFormed hp⟩
  | _ => trivial

/-! ### Accesses -/

/-- An aligned read where the value is defined: while idle, or at a register that R35 leaves defined while busy. -/
theorem hostAccess_read_defined {s : State} {addr : Half} (h4 : addr.toNat % 4 = 0)
    (h : s.busy = false ∨ (regAt s.params addr).hiddenWhileBusy = false) :
    hostAccess (.read addr) s = answer .ok (some (readReg s (regAt s.params addr))) s := by
  rcases busRead_cases addr s with ⟨hn, -⟩ | ⟨-, hb, hh, -⟩ | ⟨-, -, e⟩
  · exact absurd h4 hn
  · rcases h with h | h
    · exact absurd hb (by simp [h])
    · exact absurd hh (by simp [h])
  · exact e

/-- An aligned write while idle. -/
theorem hostAccess_write_idle {s : State} {addr : Half} (v : Word) (h4 : addr.toNat % 4 = 0) (hb : s.busy = false) :
    hostAccess (.write addr v) s = answer .ok none (writeReg v s (regAt s.params addr)) := by
  rcases busWrite_cases addr v s with ⟨hn, -⟩ | ⟨-, hb', -⟩ | ⟨-, hb', -⟩ | ⟨-, -, e⟩
  · exact absurd h4 hn
  · exact absurd hb' (by simp [hb])
  · exact absurd hb' (by simp [hb])
  · exact e

theorem Reg.Mapped.address_aligned {p : Params} {r : Reg} (h : r.Mapped p) :
    (BitVec.ofNat 16 r.offset).toNat % 4 = 0 := by
  obtain ⟨hlt, h4, -⟩ := h.at_offset
  rw [BitVec.toNat_ofNat, Nat.mod_eq_of_lt hlt, h4]

/-- A read at a register's offset. -/
theorem hostAccess_read_at {s : State} {r : Reg} (hr : r.Mapped s.params)
    (h : s.busy = false ∨ r.hiddenWhileBusy = false) :
    hostAccess (.read (BitVec.ofNat 16 r.offset)) s = answer .ok (some (readReg s r)) s := by
  have e : regAt s.params (BitVec.ofNat 16 r.offset) = r := hr.at_offset.2.2
  rw [hostAccess_read_defined hr.address_aligned (by rwa [e]), e]

/-- A write at a register's offset while idle. -/
theorem hostAccess_write_at {s : State} {r : Reg} (v : Word) (hr : r.Mapped s.params) (hb : s.busy = false) :
    hostAccess (.write (BitVec.ofNat 16 r.offset) v) s = answer .ok none (writeReg v s r) := by
  have e : regAt s.params (BitVec.ofNat 16 r.offset) = r := hr.at_offset.2.2
  rw [hostAccess_write_idle v hr.address_aligned hb, e]

theorem regAt_eq_status_iff (p : Params) {addr : Half} (h4 : addr.toNat % 4 = 0) :
    regAt p addr = .status ↔ addr = 0x008 := regAt_eq_iff p (r := .status) h4 trivial

/-- A write to STATUS acts alike busy or not (R27). -/
theorem hostAccess_write_status (v : Word) (s : State) :
    hostAccess (.write 0x008 v) s = answer .ok none (clearFlags v s) := by
  have hr : regAt s.params 0x008 = .status := (regAt_eq_status_iff s.params (by decide)).mpr rfl
  rcases busWrite_cases 0x008 v s with ⟨hn, -⟩ | ⟨-, -, -, e⟩ | ⟨-, -, hn, -⟩ | ⟨-, -, e⟩
  · exact absurd (by decide) hn
  · exact e
  · exact absurd hr hn
  · rw [hr] at e
    exact e

/-- An aligned write elsewhere while busy only sets OVR (R34). -/
theorem hostAccess_write_busy {s : State} {addr : Half} (v : Word) (h4 : addr.toNat % 4 = 0) (hb : s.busy = true)
    (hne : addr ≠ 0x008) :
    hostAccess (.write addr v) s = answer .ok none (setOverrun s) := by
  rcases busWrite_cases addr v s with ⟨hn, -⟩ | ⟨-, -, hr, -⟩ | ⟨-, -, -, e⟩ | ⟨-, hb', -⟩
  · exact absurd h4 hn
  · exact absurd ((regAt_eq_status_iff s.params h4).mp hr) hne
  · exact e
  · exact absurd hb (by simp [hb'])

/-- Settles O44: the two cases of a write while busy. -/
theorem writeWhileBusyIsIgnored : Obligations.WriteWhileBusyIsIgnored := by
  intro s addr v hb h4
  refine ⟨fun hne => hostAccess_write_busy v h4 hb hne, ?_⟩
  rintro rfl
  exact hostAccess_write_status v s

/-- A read leaves the block as it is (R88), whatever it answers. -/
theorem hostAccess_read_block (s : State) (addr : Half) : (hostAccess (.read addr) s).block = s.block := by
  rcases busRead_cases addr s with ⟨-, e⟩ | ⟨-, -, -, e⟩ | ⟨-, -, e⟩ <;> rw [hostAccess, e] <;> rfl

/-- What an access can do (R27, R34, R81, R82, R231): nothing to the block; a write to STATUS; a write lost to the busy
hazard; acceptance of a command; or a write to another register while idle. -/
theorem hostAccess_cases (a : Access) (s : State) :
    ((hostAccess a s).block = s.block ∧ (s.hostFault = true → (hostAccess a s).hostFault = true)) ∨
      (∃ v, a = .write 0x008 v ∧ hostAccess a s = answer .ok none (clearFlags v s)) ∨
      (∃ addr v, a = .write addr v ∧ addr.toNat % 4 = 0 ∧ addr ≠ 0x008 ∧ s.busy = true ∧
        hostAccess a s = answer .ok none (setOverrun s)) ∨
      (∃ v, a = .write 0x00C v ∧ s.busy = false ∧ hostAccess a s = answer .ok none (acceptCommand v s)) ∨
      (∃ v r, r ≠ .status ∧ r ≠ .cmd ∧ s.busy = false ∧ hostAccess a s = answer .ok none (writeReg v s r)) := by
  cases a with
  | read addr =>
    refine .inl ⟨hostAccess_read_block s addr, fun hf => ?_⟩
    rcases busRead_cases addr s with ⟨-, e⟩ | ⟨-, -, -, e⟩ | ⟨-, -, e⟩ <;> rw [hostAccess, e]
    · rfl
    · exact hf
    · exact hf
  | write addr v =>
    refine (busWrite_cases addr v s).elim (fun ⟨_, e⟩ => .inl ?_) fun h => .inr ?_
    · rw [hostAccess, e]
      exact ⟨rfl, fun _ => rfl⟩
    rcases h with ⟨h4, -, hr, e⟩ | ⟨h4, hb, hr, e⟩ | ⟨h4, hb, e⟩
    · obtain rfl := (regAt_eq_status_iff s.params h4).mp hr
      exact .inl ⟨v, rfl, e⟩
    · exact .inr (.inl ⟨addr, v, rfl, h4, fun hne => hr ((regAt_eq_status_iff s.params h4).mpr hne), hb, e⟩)
    · by_cases hst : regAt s.params addr = .status
      · obtain rfl := (regAt_eq_status_iff s.params h4).mp hst
        exact .inl ⟨v, rfl, hostAccess_write_status v s⟩
      refine .inr (.inr ?_)
      by_cases hcmd : regAt s.params addr = .cmd
      · obtain rfl := (regAt_eq_iff s.params (r := .cmd) h4 trivial).mp hcmd
        exact .inl ⟨v, rfl, hb, by rw [hostAccess, e, hcmd]; rfl⟩
      · exact .inr ⟨v, regAt s.params addr, hst, hcmd, hb, e⟩

end Sys2Proof.Machine
end

section
/-! PROOFS of the statements of 10_state.md, third part: the flags along a step (R26, R33, R34), and the engine's
independence of what the host and the reset number do to a running command. -/

namespace Sys2Proof.Machine

/-! ### The flags along a step -/

theorem EngineFrame.busy {s t : State} (h : EngineFrame s t) : t.busy = false := by rw [h]
theorem EngineFrame.done {s t : State} (h : EngineFrame s t) : t.done = true := by rw [h]
theorem EngineFrame.ie {s t : State} (h : EngineFrame s t) : t.ie = s.ie := by rw [h]
theorem EngineFrame.ovr {s t : State} (h : EngineFrame s t) : t.ovr = s.ovr := by rw [h]
theorem EngineFrame.draws {s t : State} (h : EngineFrame s t) : t.draws = s.draws := by rw [h]
theorem EngineFrame.script {s t : State} (h : EngineFrame s t) : t.script = s.script := by rw [h]
theorem EngineFrame.reply {s t : State} (h : EngineFrame s t) : t.reply = s.reply := by rw [h]
theorem EngineFrame.hostFault {s t : State} (h : EngineFrame s t) : t.hostFault = s.hostFault := by rw [h]

/-- Two states with the same block have the same flags. -/
theorem flags_of_block_eq {s t : State} (h : t.block = s.block) :
    t.busy = s.busy ∧ t.done = s.done ∧ t.ovr = s.ovr := by
  have hbusy : t.block.busy = s.block.busy := by rw [h]
  have hdone : t.block.done = s.block.done := by rw [h]
  have hovr : t.block.ovr = s.block.ovr := by rw [h]
  exact ⟨hbusy, hdone, hovr⟩

/-- A write to a register other than STATUS and CMD leaves BUSY, DONE, OVR and the report on the host. -/
theorem writeReg_flags (v : Word) (s : State) {r : Reg} (hst : r ≠ .status) (hcmd : r ≠ .cmd) :
    (writeReg v s r).busy = s.busy ∧ (writeReg v s r).done = s.done ∧ (writeReg v s r).ovr = s.ovr ∧
      (writeReg v s r).hostFault = s.hostFault := by
  cases r with
  | status => exact absurd rfl hst
  | cmd => exact absurd rfl hcmd
  | keycfg c => simp [writeReg, writeKeycfg]
  | key c w => simp [writeReg, writeKey]
  | iv c w => simp [writeReg]
  | id | ctrl | off | len | crcr | bufsize | k1 | k2 | buf | unmapped => exact ⟨rfl, rfl, rfl, rfl⟩

/-- The events by which a step from `s` to `t` can act on BUSY, DONE, OVR and the report on the host, each with all that
it does to them (R26, R27, R34, R231, R235, R260). `step_flagStep` says that there are no others. -/
inductive FlagStep (s t : State) : Prop
  /-- Any other event: BUSY, DONE and OVR stay, and the report does not fall. -/
  | quiet (busy : t.busy = s.busy) (done : t.done = s.done) (ovr : t.ovr = s.ovr)
      (fault : s.hostFault = true → t.hostFault = true)
  | statusWrite (v : Word) (rest : List Event) (event : s.script = .host (.write 0x008 v) :: rest)
      (busy : t.busy = s.busy) (done : t.done = (s.done && !v.getLsbD 1)) (ovr : t.ovr = (s.ovr && !v.getLsbD 3))
      (fault : t.hostFault = s.hostFault)
  | lostWrite (addr : Half) (v : Word) (rest : List Event) (event : s.script = .host (.write addr v) :: rest)
      (aligned : addr.toNat % 4 = 0) (other : addr ≠ 0x008) (wasBusy : s.busy = true) (busy : t.busy = true)
      (done : t.done = s.done) (ovr : t.ovr = true) (fault : t.hostFault = s.hostFault)
  | acceptance (v : Word) (rest : List Event) (event : s.script = .host (.write 0x00C v) :: rest)
      (wasIdle : s.busy = false) (busy : t.busy = true) (pend : t.pend = v) (done : t.done = false)
      (ovr : t.ovr = s.ovr) (fault : t.hostFault = s.hostFault)
  | reset (rest : List Event) (event : s.script = .reset :: rest) (busy : t.busy = false) (done : t.done = false)
      (ovr : t.ovr = false) (fault : t.hostFault = s.hostFault)
  | completion (event : s.script = [] ∨ ∃ rest, s.script = .engine :: rest) (wasBusy : s.busy = true)
      (busy : t.busy = false) (done : t.done = true) (ovr : t.ovr = s.ovr) (fault : t.hostFault = s.hostFault)

theorem hostAccess_flagStep {s : State} {a : Access} {rest : List Event} (hs : s.script = .host a :: rest) :
    FlagStep s (hostAccess a { s with script := rest }) := by
  rcases hostAccess_cases a { s with script := rest } with
    ⟨hblock, hf⟩ | ⟨v, rfl, e⟩ | ⟨addr, v, rfl, h4, hne, hb, e⟩ | ⟨v, rfl, hb, e⟩ | ⟨v, r, hst, hcmd, hb, e⟩
  · obtain ⟨hbusy, hdone, hovr⟩ := flags_of_block_eq hblock
    exact .quiet hbusy hdone hovr hf
  · rw [e]
    exact .statusWrite v rest hs rfl rfl rfl rfl
  · rw [e]
    exact .lostWrite addr v rest hs h4 hne hb hb rfl rfl rfl
  · rw [e]
    exact .acceptance v rest hs hb rfl rfl rfl rfl rfl
  · rw [e]
    obtain ⟨hbusy, hdone, hovr, hfault⟩ := writeReg_flags v { s with script := rest } hst hcmd
    exact .quiet hbusy hdone hovr hfault.trans

theorem step_flagStep {s t : State} (h : step s = .next t) : FlagStep s t := by
  rcases step_cases s with ⟨a, rest, hs, e⟩ | ⟨rest, hs, e⟩ | ⟨rest, hs, ⟨hb, e⟩ | ⟨hb, e⟩⟩ <;> rw [e] at h
  · obtain rfl := Host.Outcome.next.inj h
    exact hostAccess_flagStep hs
  · obtain rfl := Host.Outcome.next.inj h
    exact .reset rest hs rfl rfl rfl rfl
  · have hframe := engineStep_frame h
    have hevent : s.script = [] ∨ ∃ rest, s.script = .engine :: rest :=
      hs.elim (fun h => .inr ⟨rest, h⟩) fun h => .inl h.1
    exact .completion hevent hb hframe.busy hframe.done hframe.ovr hframe.hostFault
  · obtain rfl := Host.Outcome.next.inj h
    exact .quiet rfl rfl rfl id

/-- Settles O37, by the events that act on BUSY and DONE. -/
theorem busyAndDoneChangeOnlyAsStated : Obligations.BusyAndDoneChangeOnlyAsStated := by
  intro s t h
  cases step_flagStep h with
  | quiet busy done =>
    rw [busy, done]
    simp +contextual
  | statusWrite v rest event busy done =>
    refine ⟨by simp +contextual [busy], by simp +contextual [busy], by simp +contextual [done], fun h1 h0 => ?_⟩
    have hv : v.getLsbD 1 = true := by simpa [done, h1] using h0
    exact .inr (.inr ⟨v, rest, event, hv⟩)
  | lostWrite addr v rest event aligned other wasBusy busy done =>
    rw [wasBusy, busy, done]
    simp +contextual
  | acceptance v rest event wasIdle busy pend done =>
    exact ⟨fun _ _ => ⟨v, rest, event, pend⟩, by simp [busy], by simp [done],
      fun _ _ => .inr (.inl ⟨v, rest, event, wasIdle⟩)⟩
  | reset rest event busy done =>
    exact ⟨by simp [busy], fun _ _ => .inl ⟨rest, event⟩, by simp [done], fun _ _ => .inl ⟨rest, event⟩⟩
  | completion event wasBusy busy done =>
    exact ⟨by simp [busy], fun _ _ => .inr event, fun _ _ => ⟨wasBusy, busy, event⟩, by simp [done]⟩

/-- Settles O38, by the events that act on OVR and on the report on the host. -/
theorem overrunIsStickyUntilCleared : Obligations.OverrunIsStickyUntilCleared := by
  intro s t h
  cases step_flagStep h with
  | quiet busy done ovr fault => exact ⟨by simp +contextual [ovr], by simp +contextual [ovr], fault⟩
  | statusWrite v rest event busy done ovr fault =>
    refine ⟨by simp +contextual [ovr], fun h1 h0 => ?_, fault.trans⟩
    have hv : v.getLsbD 3 = true := by simpa [ovr, h1] using h0
    exact .inr ⟨v, rest, event, hv⟩
  | lostWrite addr v rest event aligned other wasBusy busy done ovr fault =>
    exact ⟨fun _ _ => ⟨wasBusy, addr, v, rest, event, aligned, other⟩, by simp [ovr], fault.trans⟩
  | acceptance v rest event wasIdle busy pend done ovr fault =>
    exact ⟨by simp +contextual [ovr], by simp +contextual [ovr], fault.trans⟩
  | reset rest event busy done ovr fault => exact ⟨by simp [ovr], fun _ _ => .inl ⟨rest, event⟩, fault.trans⟩
  | completion event wasBusy busy done ovr fault =>
    exact ⟨by simp +contextual [ovr], by simp +contextual [ovr], fault.trans⟩

theorem irq_of_not_done {s : State} (h : s.done = false) : irq s = false := by simp [irq, h]

theorem hostAccess_write_cmd {s : State} (v : Word) (hb : s.busy = false) :
    hostAccess (.write 0x00C v) s = answer .ok none (acceptCommand v s) :=
  hostAccess_write_at (r := .cmd) v trivial hb

theorem hostAccess_write_ctrl {s : State} (v : Word) (hb : s.busy = false) :
    hostAccess (.write 0x004 v) s =
      { s with ie := v.getLsbD 0, gen := genOfBit (v.getLsbD 1), reply := some ⟨.ok, none⟩ } :=
  hostAccess_write_at (r := .ctrl) v trivial hb

/-- Settles O36: the engine's step sets DONE and keeps IE, acceptance and acknowledgement clear DONE, and a write to
CTRL sets IE. -/
theorem interruptFollowsEnableAndDone : Obligations.InterruptFollowsEnableAndDone := by
  intro s
  refine ⟨by simp [irq], ?_, fun v hb => ?_, fun v hv => ?_, fun v hb => ?_⟩
  · obtain ⟨t, ht, -⟩ := engineStep_commandEnd s
    have hframe := engineStep_frame ht
    exact ⟨t, ht, by rw [irq, hframe.ie, hframe.done, Bool.and_true]⟩
  · rw [hostAccess_write_cmd v hb]
    exact irq_of_not_done rfl
  · rw [hostAccess_write_status]
    exact irq_of_not_done (by simp [hv])
  · rw [hostAccess_write_ctrl v hb]
    rfl

/-! ### What the engine does not work on -/

/-- `s` with all that the engine does not work on taken from `u`: DONE, OVR, the model's own fields, and the number of
the reset, on which the engine depends through the free bytes of BUF alone. -/
def State.surroundedBy (s u : State) : State :=
  { s with
    done := u.done, ovr := u.ovr, epoch := u.epoch, draws := u.draws, script := u.script, reply := u.reply,
    hostFault := u.hostFault }

/-- A state in which a command has ended, in the surroundings of `u`: as `surroundedBy`, but DONE is the command's. -/
def State.endedIn (t u : State) : State := { t.surroundedBy u with done := true }

theorem setCtx_surroundedBy (s u : State) (c : Ctx) (k : KeyContext) :
    (s.surroundedBy u).setCtx c k = (s.setCtx c k).surroundedBy u := by cases c <;> rfl

@[simp] theorem ctx_surroundedBy (s u : State) (c : Ctx) : (s.surroundedBy u).ctx c = s.ctx c := by cases c <;> rfl

theorem setIv_surroundedBy (c : Ctx) (v : Bytes 16) (s u : State) :
    setIv c v (s.surroundedBy u) = (setIv c v s).surroundedBy u := by
  rw [setIv, setCtx_surroundedBy, ctx_surroundedBy, ← setIv]

theorem setIvFirst_surroundedBy {n : Nat} (c : Ctx) (v : Bytes n) (s u : State) :
    setIvFirst c v (s.surroundedBy u) = (setIvFirst c v s).surroundedBy u := by
  rw [setIvFirst, setIv_surroundedBy, ctx_surroundedBy, ← setIvFirst]

theorem setSubkeys_surroundedBy (c : Ctx) (a b : Bytes 16) (s u : State) :
    setSubkeys c a b (s.surroundedBy u) = (setSubkeys c a b s).surroundedBy u := by
  rw [setSubkeys, setCtx_surroundedBy, ctx_surroundedBy, ← setSubkeys]

theorem legacyReset_surroundedBy (c : Ctx) (s u : State) :
    legacyReset c (s.surroundedBy u) = (legacyReset c s).surroundedBy u := by
  cases c with
  | explicit => rfl
  | session =>
    cases hg : s.gen with
    | new => rw [legacyReset_new _ s hg, legacyReset_new _ (s.surroundedBy u) hg]
    | legacy => rw [legacyReset_session s hg, legacyReset_session (s.surroundedBy u) hg, setIv_surroundedBy]

theorem memWrite_surroundedBy (s u : State) (a : Nat) (l : List Byte) :
    memWrite (s.surroundedBy u) a l = (memWrite s a l).surroundedBy u := rfl

theorem bufByte_surroundedBy_of_epoch {s u : State} (h : u.epoch = s.epoch) (x : Nat) :
    bufByte (s.surroundedBy u) x = bufByte s x := by
  simp only [bufByte, State.surroundedBy, h]

theorem bufByte_surroundedBy_of_written {s : State} (u : State) {x : Nat} (h : (memLookup s.buf x).isSome = true) :
    bufByte (s.surroundedBy u) x = bufByte s x := by
  obtain ⟨b, hb⟩ := Option.isSome_iff_exists.mp h
  simp only [bufByte, State.surroundedBy, hb, Option.getD_some]

/-- Where a byte of BUF does not depend on the surroundings, it does not after a write to BUF either. -/
theorem bufByte_memWrite_surroundedBy {s u : State} (a : Nat) (l : List Byte) {x : Nat}
    (h : bufByte (s.surroundedBy u) x = bufByte s x) :
    bufByte ((memWrite s a l).surroundedBy u) x = bufByte (memWrite s a l) x := by
  rw [← memWrite_surroundedBy, bufByte_memWrite, bufByte_memWrite, h]

@[simp] theorem offset_surroundedBy (s u : State) : offset (s.surroundedBy u) = offset s := rfl
@[simp] theorem count_surroundedBy (s u : State) : count (s.surroundedBy u) = count s := rfl
@[simp] theorem inBuf_surroundedBy (s u : State) (a n : Nat) : inBuf (s.surroundedBy u) a n = inBuf s a n := rfl

theorem checksumCommand_surroundedBy (k : Nat) (crc : List Byte → Word) {s u : State}
    (h : ∀ j < s.len.toNat, bufByte (s.surroundedBy u) (s.off.toNat + j) = bufByte s (s.off.toNat + j)) :
    checksumCommand k crc (s.surroundedBy u) = (checksumCommand k crc s).endedIn u := by
  have hread : memRead (s.surroundedBy u) (offset s) (count s) = memRead s (offset s) (count s) := memRead_congr h
  simp only [checksumCommand, offset_surroundedBy, count_surroundedBy, inBuf_surroundedBy, hread]
  split_ifs <;> rfl

theorem cbc1Command_surroundedBy (P : Primitives) (c : Ctx) (d : Dir) (o : CipherOp) {s u : State}
    (h : ∀ j < (s.ctx c).keyType.blockSize,
      bufByte (s.surroundedBy u) (s.off.toNat + j) = bufByte s (s.off.toNat + j)) :
    cbc1Command P c d o (s.surroundedBy u) = (cbc1Command P c d o s).endedIn u := by
  have hread : readBlock (s.surroundedBy u) (offset s) (s.ctx c).keyType.blockSize =
      readBlock s (offset s) (s.ctx c).keyType.blockSize := readBlock_congr h
  rw [cbc1Command, cbc1Command, ctx_surroundedBy]
  simp only [offset_surroundedBy, inBuf_surroundedBy, hread, memWrite_surroundedBy, setIvFirst_surroundedBy]
  split_ifs <;> rfl

/-- The loop of CBCN in other surroundings, when the bytes of its blocks do not depend on them. -/
theorem cbcLoop_surroundedBy (P : Primitives) (t : KeyType) (key : Bytes 24) (d : Dir) (o : CipherOp)
    (blocks a : Nat) (iv : Bytes t.blockSize) {s u : State}
    (h : ∀ j < blocks * t.blockSize, bufByte (s.surroundedBy u) (a + j) = bufByte s (a + j)) :
    cbcLoop P t key d o blocks a iv (s.surroundedBy u) =
      ((cbcLoop P t key d o blocks a iv s).1.surroundedBy u, (cbcLoop P t key d o blocks a iv s).2) := by
  induction blocks generalizing a iv s with
  | zero => rfl
  | succ n ih =>
    have hb : (n + 1) * t.blockSize = t.blockSize + n * t.blockSize := by rw [Nat.succ_mul, Nat.add_comm]
    have hread : readBlock (s.surroundedBy u) a t.blockSize = readBlock s a t.blockSize :=
      readBlock_congr fun j hj => h j (by omega)
    simp only [cbcLoop, hread, memWrite_surroundedBy]
    refine ih _ _ fun j hj => bufByte_memWrite_surroundedBy a _ ?_
    rw [Nat.add_assoc]
    exact h _ (by omega)

theorem cbcnCommand_surroundedBy (P : Primitives) (c : Ctx) (d : Dir) (o : CipherOp) {s u : State}
    (h : ∀ j < s.len.toNat, bufByte (s.surroundedBy u) (s.off.toNat + j) = bufByte s (s.off.toNat + j)) :
    cbcnCommand P c d o (s.surroundedBy u) = (cbcnCommand P c d o s).endedIn u := by
  have hloop (t : KeyType) (key : Bytes 24) (iv : Bytes t.blockSize) :=
    cbcLoop_surroundedBy P t key d o (count s / t.blockSize) (offset s) iv (s := legacyReset c s) (u := u)
      fun j hj => by
      rw [← legacyReset_surroundedBy, bufByte_legacyReset, bufByte_legacyReset]
      exact h j (Nat.lt_of_lt_of_le hj (Nat.div_mul_le_self ..))
  rw [cbcnCommand, cbcnCommand, ctx_surroundedBy]
  simp only [offset_surroundedBy, count_surroundedBy, inBuf_surroundedBy, legacyReset_surroundedBy, ctx_surroundedBy,
    hloop, setIvFirst_surroundedBy]
  split_ifs <;> rfl

theorem deriveCommand_surroundedBy (P : Primitives) (c : Ctx) (s u : State) :
    deriveCommand P c (s.surroundedBy u) = (deriveCommand P c s).endedIn u := by
  simp only [deriveCommand, ctx_surroundedBy, setSubkeys_surroundedBy]
  split_ifs <;> rfl

/-- A command does in other surroundings what it does in its own, when its input bytes do not depend on them. -/
theorem exec_surroundedBy {i : Instr} {s u : State}
    (h : ∀ j < inputLength i s, bufByte (s.surroundedBy u) (s.off.toNat + j) = bufByte s (s.off.toNat + j)) :
    ∃ t, exec i s = .next t ∧ exec i (s.surroundedBy u) = .next (t.endedIn u) := by
  cases i with
  | crc16 => exact ⟨_, rfl, congrArg _ (checksumCommand_surroundedBy 0 crc16Word h)⟩
  | crc16a => exact ⟨_, rfl, congrArg _ (checksumCommand_surroundedBy 2 crc16Word h)⟩
  | crc32 => exact ⟨_, rfl, congrArg _ (checksumCommand_surroundedBy 0 crc32 h)⟩
  | crc32a => exact ⟨_, rfl, congrArg _ (checksumCommand_surroundedBy 4 crc32 h)⟩
  | cbc1 c d o => exact ⟨_, rfl, congrArg _ (cbc1Command_surroundedBy _ c d o h)⟩
  | cbcn c d o => exact ⟨_, rfl, congrArg _ (cbcnCommand_surroundedBy _ c d o h)⟩
  | derive c => exact ⟨_, rfl, congrArg _ (deriveCommand_surroundedBy _ c s u)⟩

/-- Settles O41: another number of the reset is another surrounding, and it does not reach a byte that was written. -/
theorem writtenInputGivesDefinedResult : Obligations.WrittenInputGivesDefinedResult := by
  intro i s e hw
  obtain ⟨t, ht, hother⟩ := exec_surroundedBy (u := { s with epoch := e })
    fun j hj => bufByte_surroundedBy_of_written _ (hw j hj)
  have hframe := exec_frame ht
  have hsame : t.endedIn { s with epoch := e } = { t with epoch := e } := by
    simp only [State.endedIn, State.surroundedBy, ← hframe.done, ← hframe.ovr, ← hframe.draws, ← hframe.script,
      ← hframe.reply, ← hframe.hostFault]
  exact ⟨t, ht, hother.trans (congrArg _ hsame)⟩

/-! ### A running command and the host -/

/-- The engine's step in surroundings of the same reset number. -/
theorem engineStep_surroundedBy {s t u : State} (he : u.epoch = s.epoch) (ht : engineStep s = .next t) :
    engineStep (s.surroundedBy u) = .next (t.endedIn u) := by
  have hpend : (s.surroundedBy u).pend = s.pend := rfl
  rcases engineStep_cases s with ⟨i, hi, e⟩ | ⟨err, herr, e⟩
  · obtain ⟨v, hv, hother⟩ := exec_surroundedBy (i := i) fun j _ => bufByte_surroundedBy_of_epoch he _
    obtain rfl : v = t := Host.Outcome.next.inj (hv.symm.trans (e.symm.trans ht))
    rw [engineStep, hpend, hi]
    exact hother
  · obtain rfl := Host.Outcome.next.inj (e.symm.trans ht)
    rw [engineStep, hpend, herr]
    rfl

/-- While busy, an access changes only the surroundings of the engine (R34, R35), and of these neither the number of
the reset nor the events to come. -/
theorem hostAccess_busy {s : State} (a : Access) (hb : s.busy = true) :
    hostAccess a s = s.surroundedBy (hostAccess a s) ∧ (hostAccess a s).epoch = s.epoch ∧
      (hostAccess a s).script = s.script := by
  cases a with
  | read addr =>
    rcases busRead_cases addr s with ⟨-, e⟩ | ⟨-, -, -, e⟩ | ⟨-, -, e⟩ <;> rw [hostAccess, e] <;> exact ⟨rfl, rfl, rfl⟩
  | write addr v =>
    rcases busWrite_cases addr v s with ⟨-, e⟩ | ⟨-, -, -, e⟩ | ⟨-, -, -, e⟩ | ⟨-, hb', -⟩
    · rw [hostAccess, e]; exact ⟨rfl, rfl, rfl⟩
    · rw [hostAccess, e]; exact ⟨rfl, rfl, rfl⟩
    · rw [hostAccess, e]; exact ⟨rfl, rfl, rfl⟩
    · exact absurd hb (by simp [hb'])

theorem step_host {s : State} {a : Access} {rest : List Event} (hs : s.script = .host a :: rest) :
    step s = .next (hostAccess a { s with script := rest }) := by
  simp only [step, advance, hs, takeEvent]

theorem step_reset {s : State} {rest : List Event} (hs : s.script = .reset :: rest) :
    step s = .next (resetBlock { s with script := rest }) := by
  simp only [step, advance, hs, takeEvent]

theorem step_engine {s : State} {rest : List Event} (hs : s.script = .engine :: rest) (hb : s.busy = true) :
    step s = engineStep { s with script := rest } := by
  simp only [step, advance, hs, takeEvent, engineTurn, hb, if_true]

theorem step_script_over {s : State} (hs : s.script = []) (hb : s.busy = true) : step s = engineStep s := by
  simp only [step, advance, hs, engineTurn, hb, if_true]

theorem run_succ_of_step {M : Host.Core} {s t : M.State} (k : Nat) (h : M.step s = .next t) :
    M.run (k + 1) s = M.run k t := by rw [Host.Core.run, h]

/-- Any accesses in front of the engine's step leave its outcome as it is but for the surroundings. -/
theorem run_accesses_then_engine (as : List Access) (rest : List Event) {s t : State}
    (hs : s.script = as.map Event.host ++ .engine :: rest) (hb : s.busy = true) (ht : engineStep s = .next t) :
    ∃ u, Host.Core.run core (as.length + 1) s = .next (t.endedIn u) ∧ u.script = rest ∧ u.epoch = s.epoch := by
  induction as generalizing s t with
  | nil =>
    have hstep : step s = .next (t.endedIn { s with script := rest }) :=
      (step_engine hs hb).trans (engineStep_surroundedBy (u := { s with script := rest }) rfl ht)
    exact ⟨{ s with script := rest }, run_succ_of_step (M := core) 0 hstep, rfl, rfl⟩
  | cons a as ih =>
    have hstep := step_host hs
    obtain ⟨hsur, hepoch, hscript⟩ :=
      hostAccess_busy (s := { s with script := as.map Event.host ++ .engine :: rest }) a hb
    generalize hostAccess a { s with script := as.map Event.host ++ .engine :: rest } = v at hsur hepoch hscript hstep
    have hv : v = s.surroundedBy v := hsur
    have hvb : v.busy = true := by rw [hv]; exact hb
    have hvt : engineStep v = .next (t.endedIn v) := by rw [hv]; exact engineStep_surroundedBy hepoch ht
    obtain ⟨u, hrun, hus, hue⟩ := ih hscript hvb hvt
    exact ⟨u, (run_succ_of_step (M := core) _ hstep).trans hrun, hus, hue.trans hepoch⟩

/-- Settles O40: both runs end in the outcome of the engine's step, in surroundings of the same reset number. -/
theorem hostCannotDisturbARunningCommand : Obligations.HostCannotDisturbARunningCommand := by
  intro s as rest hb
  obtain ⟨t, ht, -⟩ := engineStep_commandEnd s
  have hgiven (script : List Event) :
      engineStep { s with script := script } = .next (t.endedIn { s with script := script }) :=
    engineStep_surroundedBy (u := { s with script := script }) rfl ht
  obtain ⟨u, hrun, hscript, hepoch⟩ := run_accesses_then_engine as rest
    (s := { s with script := as.map Event.host ++ .engine :: rest }) rfl hb (hgiven _)
  have halone : step { s with script := .engine :: rest } = .next (t.endedIn { s with script := rest }) :=
    (step_engine (s := { s with script := .engine :: rest }) rfl hb).trans (hgiven rest)
  refine ⟨_, _, hrun, halone, hscript, (engineStep_frame ht).busy, ?_⟩
  have hepoch : u.epoch = s.epoch := hepoch
  simp only [State.block, State.endedIn, State.surroundedBy, hepoch]

/-! ### A placed word -/

theorem decode_of_decodeTableWord {nbits w : Nat} {i : Instr} (h : decodeTableWord nbits w = some i) :
    decode (BitVec.ofNat 32 (w % 2 ^ nbits)) = .ok i := by
  unfold decodeTableWord at h
  cases hd : decode (BitVec.ofNat 32 (w % 2 ^ nbits)) with
  | ok j =>
    rw [hd] at h
    exact congrArg _ (Option.some.inj h)
  | error e =>
    rw [hd] at h
    exact nomatch h

theorem engineStep_of_decode {s : State} {i : Instr} (h : decode s.pend = .ok i) : engineStep s = exec i s := by
  simp only [engineStep, h]

/-- Settles O7: the engine's turn is the first event of `engineNext`, and the only one of an empty script. -/
theorem placedWordRunsNext : Obligations.PlacedWordRunsNext := by
  intro s nbits w i h
  have hrun := engineStep_of_decode (s := acceptCommand (BitVec.ofNat 32 (w % 2 ^ nbits)) s)
    (decode_of_decodeTableWord h)
  cases hs : s.script with
  | nil =>
    have hplaced : s.withFetchWord nbits w = acceptCommand (BitVec.ofNat 32 (w % 2 ^ nbits)) s := by
      simp only [State.withFetchWord, issue, acceptCommand, hs, engineNext]
    have hover : (acceptCommand (BitVec.ofNat 32 (w % 2 ^ nbits)) s).script = [] := hs
    rw [hplaced, step_script_over hover rfl, hrun]
  | cons e rest =>
    have hplaced : (s.withFetchWord nbits w).script = .engine :: e :: rest := by
      simp only [State.withFetchWord, issue, hs, engineNext]
    have hback : { s.withFetchWord nbits w with script := e :: rest } =
        acceptCommand (BitVec.ofNat 32 (w % 2 ^ nbits)) s := by
      simp only [State.withFetchWord, issue, acceptCommand, ← hs]
    rw [step_engine hplaced rfl, hback, hrun]

end Sys2Proof.Machine
end

section
/-! PROOFS of the statements of 10_state.md, fourth part: the words of the registers (20_memory.md R85), what each
register reads as and what a write to it does, and reset (R48). -/

namespace Sys2Proof.Machine

/-! ### Words and their bytes -/

/-- A concatenation as a number: the low part keeps its weight. -/
theorem toNat_append_eq_add {m n : Nat} (x : BitVec m) (y : BitVec n) :
    (x ++ y).toNat = x.toNat * 2 ^ n + y.toNat := by
  rw [BitVec.toNat_append, ← Nat.shiftLeft_add_eq_or_of_lt y.isLt, Nat.shiftLeft_eq]

theorem packWord_toNat (b0 b1 b2 b3 : Byte) :
    (packWord b0 b1 b2 b3).toNat = b0.toNat + b1.toNat * 2 ^ 8 + b2.toNat * 2 ^ 16 + b3.toNat * 2 ^ 24 := by
  simp only [packWord, toNat_append_eq_add]
  omega

theorem wordByte_toNat (v : Word) (i : Nat) : (wordByte v i).toNat = v.toNat / 2 ^ (8 * i) % 2 ^ 8 := by
  rw [wordByte, BitVec.extractLsb'_toNat, Nat.shiftRight_eq_div_pow]

theorem wordByte_packWord (b0 b1 b2 b3 : Byte) :
    wordByte (packWord b0 b1 b2 b3) 0 = b0 ∧ wordByte (packWord b0 b1 b2 b3) 1 = b1 ∧
      wordByte (packWord b0 b1 b2 b3) 2 = b2 ∧ wordByte (packWord b0 b1 b2 b3) 3 = b3 := by
  refine ⟨?_, ?_, ?_, ?_⟩ <;> apply BitVec.eq_of_toNat_eq <;> rw [wordByte_toNat, packWord_toNat] <;> omega

/-- Byte i of word w of a byte string is byte 4w + i of the string (R85). -/
theorem wordByte_wordOf {n : Nat} (s : Bytes n) (w : Nat) {i : Nat} (hi : i < 4) :
    wordByte (wordOf s w) i = byteAt s (4 * w + i) := by
  obtain ⟨h0, h1, h2, h3⟩ :=
    wordByte_packWord (byteAt s (4 * w)) (byteAt s (4 * w + 1)) (byteAt s (4 * w + 2)) (byteAt s (4 * w + 3))
  rcases (by omega : i = 0 ∨ i = 1 ∨ i = 2 ∨ i = 3) with rfl | rfl | rfl | rfl
  · exact h0
  · exact h1
  · exact h2
  · exact h3

/-- A word of a byte string written and read back (R85). -/
theorem wordOf_setWordOf {n : Nat} (s : Bytes n) {w : Nat} (v : Word) (h : 4 * w + 3 < n) :
    wordOf (setWordOf s w v) w = v := by
  have hbyte (i : Nat) (hi : i < 4) : byteAt (setWordOf s w v) (4 * w + i) = wordByte v i := by
    rw [byteAt_lt _ (by omega), setWordOf_getElem, if_pos (by omega), Nat.mul_add_mod, Nat.mod_eq_of_lt hi]
  have hbyte0 : byteAt (setWordOf s w v) (4 * w) = wordByte v 0 := hbyte 0 (by omega)
  rw [wordOf, hbyte0, hbyte 1 (by omega), hbyte 2 (by omega), hbyte 3 (by omega)]
  exact packWord_wordByte v

theorem wordOf_zero (n w : Nat) : wordOf (Bytes.zero n) w = 0 := by
  have hbyte (i : Nat) : byteAt (Bytes.zero n) i = 0 := by
    by_cases hi : i < n
    · rw [byteAt_lt _ hi, Vector.getElem_replicate]
    · exact byteAt_ge _ (Nat.not_lt.mp hi)
  simp only [wordOf, hbyte]
  rfl

theorem ctrlWord_toNat (s : State) : (ctrlWord s).toNat = s.ie.toNat + 2 * (genBit s.gen).toNat := by
  simp only [ctrlWord, toNat_append_eq_add, BitVec.toNat_ofBool, BitVec.toNat_ofNat]
  omega

theorem statusWord_toNat (s : State) :
    (statusWord s).toNat =
      s.busy.toNat + 2 * s.done.toNat + 4 * s.cz.toNat + 8 * s.ovr.toNat + 16 * s.err.toNat := by
  simp only [statusWord, toNat_append_eq_add, BitVec.toNat_ofBool, BitVec.toNat_ofNat]
  omega

theorem keycfgWord_toNat (k : KeyContext) :
    (keycfgWord k).toNat = k.keyType.code.toNat + 256 * k.kvalid.toNat + 512 * k.skvalid.toNat := by
  simp only [keycfgWord, toNat_append_eq_add, BitVec.toNat_ofBool, BitVec.toNat_ofNat]
  omega

theorem setWidth_eq_extractLsb' {m : Nat} (n : Nat) (v : BitVec m) : v.setWidth n = v.extractLsb' 0 n := by
  ext i hi
  simp

/-- The type that a two-bit code names has that code (R170). -/
theorem KeyType.code_ofCode : ∀ v : BitVec 2, (KeyType.ofCode v).code = v := by decide

/-! ### Addresses as R22 writes them -/

theorem key_address (c : Ctx) (w : Fin 6) : 0x120 + 0x100 * c.code + 4 * w.val = (Reg.key c w).offset := by
  simp only [Reg.offset, ctxBase]; omega

theorem iv_address (c : Ctx) (w : Fin 4) : 0x140 + 0x100 * c.code + 4 * w.val = (Reg.iv c w).offset := by
  simp only [Reg.offset, ctxBase]; omega

theorem k1_address (c : Ctx) (w : Fin 4) : 0x160 + 0x100 * c.code + 4 * w.val = (Reg.k1 c w).offset := by
  simp only [Reg.offset, ctxBase]; omega

theorem k2_address (c : Ctx) (w : Fin 4) : 0x170 + 0x100 * c.code + 4 * w.val = (Reg.k2 c w).offset := by
  simp only [Reg.offset, ctxBase]; omega

/-! ### Reads -/

/-- A register reads alike whatever was answered before. -/
theorem readReg_answer (resp : Response) (d : Option Word) (s : State) (r : Reg) :
    readReg (answer resp d s) r = readReg s r := by cases r <;> rfl

/-- Settles O46: a defined read is `readReg`, which does not see the record of answers, and a KEY word reads 0. -/
theorem readsHaveNoSideEffect : Obligations.ReadsHaveNoSideEffect := by
  intro s addr
  refine ⟨hostAccess_read_block s addr, fun hdef => ?_, fun c w => ?_⟩
  · by_cases h4 : addr.toNat % 4 = 0
    · have hdef' (d : Option Word) : (answer .ok d s).busy = false ∨
          (regAt (answer .ok d s).params addr).hiddenWhileBusy = false := hdef
      rw [hostAccess_read_defined h4 hdef, hostAccess_read_defined h4 (hdef' _), readReg_answer]
      rfl
    · have hmis (s : State) : (hostAccess (.read addr) s).reply = some ⟨.error, some 0⟩ := by
        rw [hostAccess, busRead, aligned, decide_eq_false h4]
        rfl
      rw [hmis, hmis]
  · rw [key_address]
    exact hostAccess_read_at (r := .key c w) trivial (.inr rfl)

/-- Settles O47, register by register through `hostAccess_read_at`. -/
theorem registersReadTheirFields : Obligations.RegistersReadTheirFields := by
  intro s
  refine ⟨hostAccess_read_at (r := .id) trivial (.inr rfl),
    ⟨_, hostAccess_read_at (r := .ctrl) trivial (.inr rfl), ctrlWord_toNat s⟩,
    ⟨_, hostAccess_read_at (r := .status) trivial (.inr rfl), statusWord_toNat s⟩,
    hostAccess_read_at (r := .cmd) trivial (.inr rfl),
    ⟨_, hostAccess_read_at (r := .off) trivial (.inr rfl), ?_⟩,
    ⟨_, hostAccess_read_at (r := .len) trivial (.inr rfl), ?_⟩,
    ⟨_, hostAccess_read_at (r := .bufsize) trivial (.inr rfl), fun hp => ?_⟩, fun addr h4 hun => ?_, fun hb =>
    ⟨hostAccess_read_at (r := .crcr) trivial (.inl hb), fun c =>
      ⟨_, hostAccess_read_at (r := .keycfg c) trivial (.inl hb), keycfgWord_toNat (s.ctx c)⟩⟩⟩
  · simp only [readReg, BitVec.toNat_setWidth]; omega
  · simp only [readReg, BitVec.toNat_setWidth]; omega
  · have hle := Params.bufBytes_le_of_wellFormed hp
    rw [readReg, BitVec.toNat_ofNat, Nat.mod_eq_of_lt (by omega)]
  · have hreg := regAt_unoccupied s.params addr h4 hun
    rw [hostAccess_read_defined h4 (.inr (by rw [hreg]; rfl)), hreg]
    rfl

/-- Settles O54: a subkey word is a word of the subkey, and without valid subkeys a word of zeros. -/
theorem subkeyWordsReadTheSubkeys : Obligations.SubkeyWordsReadTheSubkeys := by
  intro s c w hb
  rw [k1_address, k2_address]
  refine ⟨wordOf (s.ctx c).k1 w.val, wordOf (s.ctx c).k2 w.val, hostAccess_read_at (r := .k1 c w) trivial (.inl hb),
    hostAccess_read_at (r := .k2 c w) trivial (.inl hb), fun i hi => ⟨wordByte_wordOf _ _ hi, wordByte_wordOf _ _ hi⟩,
    fun hcons hsk => ?_⟩
  rw [hcons.k1_cleared hsk, hcons.k2_cleared hsk]
  exact ⟨wordOf_zero 16 _, wordOf_zero 16 _⟩

/-! ### Writes -/

/-- Settles O45: `clearFlags` is R27, and `hostAccess_write_status` says that it applies busy or not. -/
theorem statusWriteClearsDoneAndOverrun : Obligations.StatusWriteClearsDoneAndOverrun := by
  intro s v
  refine ⟨_, hostAccess_write_status v s, fun h => ?_, fun h => ?_, fun h => ?_, fun h => ?_, rfl⟩ <;>
    simp only [answer_done, answer_ovr, clearFlags_done, clearFlags_ovr, h, Bool.not_true, Bool.not_false, Bool.and_false,
      Bool.and_true]

/-- Settles O48, by the rule for a write at a register's offset. -/
theorem operandRegisterWrites : Obligations.OperandRegisterWrites := by
  intro s v hb
  rw [← setWidth_eq_extractLsb']
  exact ⟨hostAccess_write_ctrl v hb, hostAccess_write_at (r := .off) v trivial hb,
    hostAccess_write_at (r := .len) v trivial hb⟩

/-- A word of K1 or K2 ignores writes (R45). -/
theorem writeReg_subkeyWord (v : Word) (s : State) (c : Ctx) {o : Nat} (h : 0x60 ≤ o) (h' : o < 0x80) :
    writeReg v s (ctxRegAt c o) = s := by
  unfold ctxRegAt
  split_ifs <;> first | rfl | (exfalso; omega)

/-- Settles O49: each of these words is a read-only register or none, and `writeReg` leaves the state as it is. -/
theorem readOnlyWordsIgnoreWrites : Obligations.ReadOnlyWordsIgnoreWrites := by
  intro s addr v hb h4 haddr
  suffices hkeep : writeReg v s (regAt s.params addr) = s by
    rw [hostAccess_write_idle v h4 hb, hkeep]; rfl
  rcases haddr with rfl | rfl | rfl | ⟨hlo, hhi⟩ | ⟨hlo, hhi⟩ | hun
  · rfl
  · rfl
  · rfl
  · rw [regAt_ctx s.params .explicit (o := addr.toNat - 0x100) (by omega) (by simp only [ctxBase, Ctx.code]; omega)]
    exact writeReg_subkeyWord v s _ (by omega) (by omega)
  · rw [regAt_ctx s.params .session (o := addr.toNat - 0x200) (by omega) (by simp only [ctxBase, Ctx.code]; omega)]
    exact writeReg_subkeyWord v s _ (by omega) (by omega)
  · rw [regAt_unoccupied s.params addr h4 hun]
    rfl

theorem ctx_writeKeycfg_same (c : Ctx) (v : Word) (s : State) :
    (writeKeycfg c v s).ctx c =
      { (s.ctx c).dropSubkeys with keyType := KeyType.ofCode (v.setWidth 2), kvalid := true } := ctx_setCtx_same s c _

theorem ctx_writeKey_same (c : Ctx) (w : Fin 6) (v : Word) (s : State) :
    (writeKey c w v s).ctx c =
      { (s.ctx c).dropSubkeys with key := setWordOf (s.ctx c).key w.val v, kvalid := false } := ctx_setCtx_same s c _

/-- Settles O50: `writeKeycfg` on the context as it was. -/
theorem keycfgWriteCommitsTheKey : Obligations.KeycfgWriteCommitsTheKey := by
  intro s c v hb
  refine ⟨_, hostAccess_write_at (r := .keycfg c) v trivial hb, ?_⟩
  rw [writeReg, ctx_answer, ctx_writeKeycfg_same]
  refine ⟨?_, rfl, rfl, rfl, rfl, rfl, rfl, rfl⟩
  rw [← setWidth_eq_extractLsb']
  exact KeyType.code_ofCode _

/-- Settles O51: `writeKey` on the context as it was, byte by byte of KEY. -/
theorem keyWriteInvalidatesTheKey : Obligations.KeyWriteInvalidatesTheKey := by
  intro s c w v hb
  rw [key_address]
  refine ⟨_, hostAccess_write_at (r := .key c w) v trivial hb, ?_⟩
  rw [writeReg, ctx_answer, ctx_writeKey_same]
  exact ⟨fun j hj => setWordOf_getElem _ _ _ j hj, rfl, rfl, rfl, rfl, rfl, rfl, rfl⟩

/-- Settles O53, by the byte order of `packWord` and `setWordOf`. -/
theorem ivWordsPackBytesLittleEndian : Obligations.IvWordsPackBytesLittleEndian := by
  rintro s c w v addr hb rfl
  rw [iv_address]
  refine ⟨⟨_, hostAccess_read_at (r := .iv c w) trivial (.inl hb), packWord_toNat ..⟩,
    _, hostAccess_write_at (r := .iv c w) v trivial hb, ?_, ?_, ?_⟩
  · intro j hj
    simp only [writeReg, ctx_answer, ctx_setIv_same, setWordOf_getElem]
    rfl
  · simp only [writeReg, ctx_answer, ctx_setIv_same]
    rfl
  · have hback : readReg (answer .ok none (writeReg v s (.iv c w))) (.iv c w) = v := by
      simp only [writeReg, readReg, ctx_answer, ctx_setIv_same]
      exact wordOf_setWordOf _ v (by omega)
    rw [hostAccess_read_at (r := .iv c w) trivial (.inl (by simpa [writeReg] using hb)), hback]
    rfl

/-! ### Key material -/

@[simp] theorem eraseKeys_busy (s : State) : s.eraseKeys.busy = s.busy := rfl
@[simp] theorem eraseKeys_params (s : State) : s.eraseKeys.params = s.params := rfl
@[simp] theorem eraseKeys_draws (s : State) : s.eraseKeys.draws = s.draws := rfl
@[simp] theorem eraseKeys_idem (s : State) : s.eraseKeys.eraseKeys = s.eraseKeys := rfl

/-- No register shows a byte of a KEY (R43). -/
theorem readReg_eraseKeys (s : State) (r : Reg) : readReg s.eraseKeys r = readReg s r := by
  cases r with
  | keycfg c => cases c <;> rfl
  | iv c w => cases c <;> rfl
  | k1 c w => cases c <;> rfl
  | k2 c w => cases c <;> rfl
  | id | ctrl | status | cmd | off | len | crcr | bufsize | key | buf | unmapped => rfl

theorem ctx_eraseKeys (s : State) (c : Ctx) : s.eraseKeys.ctx c = { s.ctx c with key := Bytes.zero 24 } := by
  cases c <;> rfl

theorem eraseKeys_setCtx (s : State) (c : Ctx) (k : KeyContext) :
    (s.setCtx c k).eraseKeys = s.eraseKeys.setCtx c { k with key := Bytes.zero 24 } := by cases c <;> rfl

/-- A write to a register depends on no byte of a KEY, but for the bytes of the KEY that it leaves. -/
theorem writeReg_eraseKeys (v : Word) (s : State) (r : Reg) :
    (writeReg v s.eraseKeys r).eraseKeys = (writeReg v s r).eraseKeys := by
  cases r with
  | keycfg c =>
    simp only [writeReg, writeKeycfg, eraseKeys_setCtx, ctx_eraseKeys, eraseKeys_idem, KeyContext.dropSubkeys]
  | key c w =>
    simp only [writeReg, writeKey, eraseKeys_setCtx, ctx_eraseKeys, eraseKeys_idem, KeyContext.dropSubkeys]
  | iv c w => simp only [writeReg, setIv, eraseKeys_setCtx, ctx_eraseKeys, eraseKeys_idem]
  | id | ctrl | status | cmd | off | len | crcr | bufsize | k1 | k2 | buf | unmapped => rfl

theorem busRead_eraseKeys (addr : Half) (s : State) : busRead addr s.eraseKeys = (busRead addr s).eraseKeys := by
  simp only [busRead, eraseKeys_busy, eraseKeys_params, eraseKeys_draws, readReg_eraseKeys]
  split_ifs <;> rfl

theorem applyWrite_eraseKeys (r : Reg) (v : Word) (s : State) :
    (applyWrite r v s.eraseKeys).eraseKeys = (applyWrite r v s).eraseKeys := by
  cases hb : s.busy with
  | false =>
    simp only [applyWrite, eraseKeys_busy, hb, Bool.false_eq_true, if_false]
    exact writeReg_eraseKeys v s r
  | true =>
    simp only [applyWrite, eraseKeys_busy, hb, if_true]
    split_ifs <;> rfl

theorem eraseKeys_answer (resp : Response) (d : Option Word) (s : State) :
    (answer resp d s).eraseKeys = answer resp d s.eraseKeys := rfl

theorem busWrite_eraseKeys (addr : Half) (v : Word) (s : State) :
    (busWrite addr v s.eraseKeys).eraseKeys = (busWrite addr v s).eraseKeys := by
  simp only [busWrite, eraseKeys_params]
  split_ifs
  · rw [eraseKeys_answer, applyWrite_eraseKeys, eraseKeys_answer]
  · rfl

/-- What an access leaves and answers, key material aside, is a function of the state, key material aside. -/
theorem hostAccess_eraseKeys (a : Access) (s : State) :
    (hostAccess a s.eraseKeys).eraseKeys = (hostAccess a s).eraseKeys := by
  cases a with
  | read addr => rw [hostAccess, hostAccess, busRead_eraseKeys, eraseKeys_idem]
  | write addr v => exact busWrite_eraseKeys addr v s

/-- Settles O52: both accesses are the access in the same erased state. -/
theorem keyMaterialIsNotReadable : Obligations.KeyMaterialIsNotReadable := by
  intro a s₁ s₂ h
  have herased : (hostAccess a s₁).eraseKeys = (hostAccess a s₂).eraseKeys := by
    rw [← hostAccess_eraseKeys a s₁, h, hostAccess_eraseKeys]
  have hreply : (hostAccess a s₁).eraseKeys.reply = (hostAccess a s₂).eraseKeys.reply := by rw [herased]
  exact ⟨herased, hreply⟩

/-! ### Reset -/

/-- Settles O56: the block is idle after the reset, so the engine's next turn only leaves the script. -/
theorem resetTransition : Obligations.ResetTransition := by
  intro s rest hs
  refine ⟨resetBlock { s with script := rest }, step_reset hs, rfl, rfl, rfl, rfl, rfl, rfl, rfl,
    rfl, rfl, rfl, rfl, fun c => ?_, fun a => rfl, rfl, rfl, ?_⟩
  · rw [ctx_resetBlock]
    exact ⟨rfl, rfl, rfl, rfl, rfl, rfl, rfl⟩
  · rintro more rfl
    rfl

theorem reset_sound : State.reset.Sound where
  params_ok := by decide
  buf_wf := reset_buf_wf
  buf_in_range := nofun
  err_legal := by decide
  busy_not_done := nofun
  busy_no_error := nofun

theorem ctx_reset (c : Ctx) : State.reset.ctx c = KeyContext.reset := by cases c <;> rfl

/-- Settles O57: both contexts are in their reset state, and the rest is read off `State.reset`. -/
theorem resetStateMeetsTheInvariants : Obligations.ResetStateMeetsTheInvariants := by
  refine ⟨reset_sound, fun c => ?_, rfl, rfl, rfl, rfl, rfl, rfl, fun c => ?_, fun _ => rfl⟩
  · rw [ctx_reset]
    exact KeyContext.reset_consistent _
  · rw [ctx_reset]
    exact ⟨rfl, rfl, rfl⟩

end Sys2Proof.Machine
end

section
/-! PROOFS of the statements of 20_memory.md: soundness, kept by each operation on its own and so by every command,
access and step; the BUF window; alignment; and the order of events. -/

namespace Sys2Proof.Machine

/-! ### Soundness, operation by operation -/

/-- Soundness speaks of the parameters, BUF, ERR, BUSY and DONE only. -/
theorem State.Sound.congr {s t : State} (h : s.Sound) (params : t.params = s.params) (buf : t.buf = s.buf)
    (err : t.err = s.err) (busy : t.busy = s.busy) (done : t.done = s.done) : t.Sound where
  params_ok := by rw [params]; exact h.params_ok
  buf_wf := by rw [buf]; exact h.buf_wf
  buf_in_range := by rw [params, buf]; exact h.buf_in_range
  err_legal := by rw [err]; exact h.err_legal
  busy_not_done := by rw [busy, done]; exact h.busy_not_done
  busy_no_error := by rw [busy, err]; exact h.busy_no_error

theorem State.Sound.setCtx {s : State} (h : s.Sound) (c : Ctx) (k : KeyContext) : (s.setCtx c k).Sound :=
  h.congr (setCtx_params s c k) (setCtx_buf s c k) (setCtx_err s c k) (setCtx_busy s c k) (setCtx_done s c k)

theorem State.Sound.setCrc {s : State} (h : s.Sound) (r : Word) : (setCrc r s).Sound := h.congr rfl rfl rfl rfl rfl

/-- A write inside BUF keeps the memory canonical and in range (20_memory.md R86). -/
theorem State.Sound.memWrite {s : State} (h : s.Sound) {a : Nat} {l : List Byte}
    (hin : a + l.length ≤ s.params.bufBytes) : (memWrite s a l).Sound where
  params_ok := h.params_ok
  buf_wf := memWrite_wf s a l h.buf_wf
  buf_in_range := memStoreAll_in_range l h.buf_in_range hin
  err_legal := h.err_legal
  busy_not_done := h.busy_not_done
  busy_no_error := h.busy_no_error

theorem State.Sound.acceptCommand {s : State} (h : s.Sound) (v : Word) : (acceptCommand v s).Sound where
  params_ok := h.params_ok
  buf_wf := h.buf_wf
  buf_in_range := h.buf_in_range
  err_legal := Nat.zero_le 4
  busy_not_done _ := rfl
  busy_no_error _ := rfl

theorem errValue_le (e : ErrCode) : (errValue e).toNat ≤ 4 := by cases e <;> decide

/-- A command's end is never busy, so only its code is in question (R233). -/
theorem State.Sound.endCommand {s : State} (h : s.Sound) (e : ErrCode) : (endCommand e s).Sound where
  params_ok := h.params_ok
  buf_wf := h.buf_wf
  buf_in_range := h.buf_in_range
  err_legal := errValue_le e
  busy_not_done := nofun
  busy_no_error := nofun

/-- A write to STATUS can only clear DONE (R27). -/
theorem State.Sound.clearFlags {s : State} (h : s.Sound) (v : Word) : (clearFlags v s).Sound where
  params_ok := h.params_ok
  buf_wf := h.buf_wf
  buf_in_range := h.buf_in_range
  err_legal := h.err_legal
  busy_not_done hb := by rw [clearFlags_done, h.busy_not_done hb, Bool.false_and]
  busy_no_error := h.busy_no_error

theorem State.Sound.resetBlock {s : State} (h : s.Sound) : (resetBlock s).Sound where
  params_ok := h.params_ok
  buf_wf := resetBlock_buf_wf s
  buf_in_range := nofun
  err_legal := Nat.zero_le 4
  busy_not_done := nofun
  busy_no_error := nofun

/-! ### Soundness along an access -/

/-- An address names a word of the BUF window only below BUF_BYTES (20_memory.md R84). -/
theorem lt_of_regAt_eq_buf {p : Params} {addr : Half} (h4 : addr.toNat % 4 = 0) {j : Nat}
    (h : regAt p addr = .buf j) : j < p.bufBytes / 4 := by
  have haddr : 0x8000 + 4 * j = addr.toNat := by
    simpa only [h, Reg.offset] using offset_regAt p h4 (by rw [h]; exact nofun)
  rw [regAt, ← haddr, if_neg (by omega), if_neg (by omega), if_neg (by omega)] at h
  split_ifs at h with hb
  omega

/-- A write to a register keeps soundness; only the BUF window needs its bound. -/
theorem State.Sound.writeReg {s : State} (h : s.Sound) (v : Word) {r : Reg}
    (hbuf : ∀ j, r = .buf j → j < s.params.bufBytes / 4) : (writeReg v s r).Sound := by
  cases r with
  | buf j =>
    have hj := hbuf j rfl
    exact h.memWrite (by rw [leBytes_length]; omega)
  | status => exact h.clearFlags v
  | cmd => exact h.acceptCommand v
  | keycfg c => exact h.setCtx c _
  | key c w => exact h.setCtx c _
  | iv c w => exact h.setCtx c _
  | id | ctrl | off | len | crcr | bufsize | k1 | k2 | unmapped => exact h.congr rfl rfl rfl rfl rfl

theorem State.Sound.hostAccess {s : State} (h : s.Sound) (a : Access) : (hostAccess a s).Sound := by
  cases a with
  | read addr =>
    rcases busRead_cases addr s with ⟨-, e⟩ | ⟨-, -, -, e⟩ | ⟨-, -, e⟩ <;> rw [Machine.hostAccess, e] <;>
      exact h.congr rfl rfl rfl rfl rfl
  | write addr v =>
    rcases busWrite_cases addr v s with ⟨-, e⟩ | ⟨-, -, -, e⟩ | ⟨-, -, -, e⟩ | ⟨h4, -, e⟩ <;> rw [Machine.hostAccess, e]
    · exact h.congr rfl rfl rfl rfl rfl
    · exact (h.clearFlags v).congr rfl rfl rfl rfl rfl
    · exact h.congr rfl rfl rfl rfl rfl
    · exact (h.writeReg v fun j => lt_of_regAt_eq_buf h4).congr rfl rfl rfl rfl rfl

/-! ### Soundness along a command -/

theorem State.Sound.legacyReset {s : State} (h : s.Sound) (c : Ctx) : (legacyReset c s).Sound := by
  rcases legacyReset_cases c s with e | ⟨-, -, e⟩ <;> rw [e]
  · exact h
  · exact h.setCtx .session _

theorem State.Sound.checksumCommand {s : State} (h : s.Sound) (k : Nat) (crc : List Byte → Word) :
    (checksumCommand k crc s).Sound := by
  rcases checksumCommand_cases k crc s with ⟨-, e⟩ | ⟨hin, e⟩ <;> rw [e]
  · exact h.endCommand .bounds
  · exact ((h.memWrite (by rwa [leBytes_length])).setCrc _).endCommand .none

theorem State.Sound.cbc1Command {s : State} (h : s.Sound) (P : Primitives) (c : Ctx) (d : Dir) (o : CipherOp) :
    (cbc1Command P c d o s).Sound := by
  rcases cbc1Command_cases P c d o s with ⟨-, e⟩ | ⟨-, -, e⟩ | ⟨-, hin, r, -, e⟩ <;> rw [e]
  · exact h.endCommand .nokey
  · exact h.endCommand .bounds
  · exact ((h.memWrite (by rwa [Vector.length_toList])).setCtx c _).endCommand .none

/-- The loop of CBCN keeps soundness when its blocks lie inside BUF. -/
theorem State.Sound.cbcLoop {s : State} (h : s.Sound) (P : Primitives) (t : KeyType) (key : Bytes 24) (d : Dir)
    (o : CipherOp) {blocks a : Nat} (iv : Bytes t.blockSize) (hin : a + blocks * t.blockSize ≤ s.params.bufBytes) :
    (cbcLoop P t key d o blocks a iv s).1.Sound := by
  induction blocks generalizing a iv s with
  | zero => exact h
  | succ n ih =>
    rw [Nat.succ_mul] at hin
    have hblock : a + t.blockSize ≤ s.params.bufBytes := by omega
    have hrest : a + t.blockSize + n * t.blockSize ≤ s.params.bufBytes := by omega
    exact ih (h.memWrite (by rwa [Vector.length_toList])) _ hrest

theorem State.Sound.cbcnCommand {s : State} (h : s.Sound) (P : Primitives) (c : Ctx) (d : Dir) (o : CipherOp) :
    (cbcnCommand P c d o s).Sound := by
  rcases cbcnCommand_cases P c d o s with ⟨-, e⟩ | ⟨-, -, e⟩ | ⟨-, -, -, e⟩ | ⟨-, hmod, hin, r, rfl, e⟩ <;> rw [e]
  · exact h.endCommand .nokey
  · exact h.endCommand .length
  · exact h.endCommand .bounds
  · have hblocks : s.off.toNat + s.len.toNat / (s.ctx c).keyType.blockSize * (s.ctx c).keyType.blockSize ≤
        (Machine.legacyReset c s).params.bufBytes := by
      rwa [Nat.div_mul_cancel (Nat.dvd_of_mod_eq_zero hmod), legacyReset_params]
    exact (((h.legacyReset c).cbcLoop P _ _ d o _ hblocks).setCtx c _).endCommand .none

theorem State.Sound.deriveCommand {s : State} (h : s.Sound) (P : Primitives) (c : Ctx) :
    (deriveCommand P c s).Sound := by
  rcases deriveCommand_cases P c s with ⟨-, e⟩ | ⟨-, e⟩ <;> rw [e]
  · exact h.endCommand .nokey
  · exact (h.setCtx c _).endCommand .none

theorem State.Sound.exec {s t : State} (h : s.Sound) {i : Instr} (ht : exec i s = .next t) : t.Sound := by
  cases i with
  | crc16 => exact Host.Outcome.next.inj ht ▸ h.checksumCommand 0 crc16Word
  | crc16a => exact Host.Outcome.next.inj ht ▸ h.checksumCommand 2 crc16Word
  | crc32 => exact Host.Outcome.next.inj ht ▸ h.checksumCommand 0 crc32
  | crc32a => exact Host.Outcome.next.inj ht ▸ h.checksumCommand 4 crc32
  | cbc1 c d o => exact Host.Outcome.next.inj ht ▸ h.cbc1Command Config.primitives c d o
  | cbcn c d o => exact Host.Outcome.next.inj ht ▸ h.cbcnCommand Config.primitives c d o
  | derive c => exact Host.Outcome.next.inj ht ▸ h.deriveCommand Config.primitives c

theorem State.Sound.engineStep {s t : State} (h : s.Sound) (ht : engineStep s = .next t) : t.Sound := by
  rcases engineStep_cases s with ⟨i, -, e⟩ | ⟨_, -, e⟩ <;> rw [e] at ht
  · exact h.exec ht
  · exact Host.Outcome.next.inj ht ▸ h.endCommand .opcode

/-- Settles O59: soundness does not see the script, and an access, a reset and a command's end keep it. -/
theorem everyStepKeepsSoundness : Obligations.EveryStepKeepsSoundness := by
  intro s t hs hstep
  have hrest (rest : List Event) : { s with script := rest }.Sound := hs.congr rfl rfl rfl rfl rfl
  rcases step_cases s with ⟨a, rest, -, e⟩ | ⟨rest, -, e⟩ | ⟨rest, -, ⟨-, e⟩ | ⟨-, e⟩⟩ <;> rw [e] at hstep
  · obtain rfl := Host.Outcome.next.inj hstep
    exact (hrest rest).hostAccess a
  · obtain rfl := Host.Outcome.next.inj hstep
    exact (hrest rest).resetBlock
  · exact (hrest rest).engineStep hstep
  · obtain rfl := Host.Outcome.next.inj hstep
    exact hrest rest

/-! ### The BUF window (R84) -/

/-- A word stored in BUF, byte by byte, low byte first (R85). -/
theorem bufByte_memWrite_leBytes (s : State) (a : Nat) (v : Word) {i n : Nat} (hi : i < n) :
    bufByte (memWrite s a (leBytes n v)) (a + i) = wordByte v i := by
  rw [bufByte_memWrite_inside s a (by rwa [leBytes_length]), leBytes_getElem]

/-- Settles O55: the register at the address is BUF word j; `packWord_toNat` is the read, and
`bufByte_memWrite_leBytes` the write. -/
theorem bufWindowReadsAndWritesBuf : Obligations.BufWindowReadsAndWritesBuf := by
  rintro s j v addr hb hp hj rfl
  have hmapped : (Reg.buf j).Mapped s.params := ⟨hj, Params.bufBytes_le_of_wellFormed hp⟩
  refine ⟨⟨bufWord s j, hostAccess_read_at hmapped (.inl hb), packWord_toNat ..⟩,
    _, hostAccess_write_at v hmapped hb, fun i hi => ?_, fun x hx => ?_, rfl⟩
  · exact bufByte_memWrite_leBytes s (4 * j) v hi
  · exact bufByte_memWrite_outside s (by rwa [leBytes_length])

/-! ### Alignment (R82) -/

theorem hostAccess_misaligned {s : State} {addr : Half} (v : Word) (h : addr.toNat % 4 ≠ 0) :
    hostAccess (.read addr) s = misaligned (some 0) s ∧ hostAccess (.write addr v) s = misaligned none s := by
  simp [hostAccess, busRead, busWrite, aligned, h]

/-- No write to a register touches the report on the host. -/
theorem writeReg_hostFault (v : Word) (s : State) (r : Reg) : (writeReg v s r).hostFault = s.hostFault := by
  by_cases hst : r = .status
  · subst hst; rfl
  by_cases hcmd : r = .cmd
  · subst hcmd; rfl
  obtain ⟨-, -, -, hfault⟩ := writeReg_flags v s hst hcmd
  exact hfault

theorem hostAccess_read_aligned {s : State} {addr : Half} (h4 : addr.toNat % 4 = 0) :
    (∃ r, (hostAccess (.read addr) s).reply = some ⟨.ok, some r⟩) ∧
      (hostAccess (.read addr) s).hostFault = s.hostFault := by
  rcases busRead_cases addr s with ⟨hn, -⟩ | ⟨-, -, -, e⟩ | ⟨-, -, e⟩
  · exact absurd h4 hn
  · rw [hostAccess, e]; exact ⟨⟨_, rfl⟩, rfl⟩
  · rw [hostAccess, e]; exact ⟨⟨_, rfl⟩, rfl⟩

theorem hostAccess_write_aligned {s : State} {addr : Half} (v : Word) (h4 : addr.toNat % 4 = 0) :
    (hostAccess (.write addr v) s).reply = some ⟨.ok, none⟩ ∧
      (hostAccess (.write addr v) s).hostFault = s.hostFault := by
  rcases busWrite_cases addr v s with ⟨hn, -⟩ | ⟨-, -, -, e⟩ | ⟨-, -, -, e⟩ | ⟨-, -, e⟩
  · exact absurd h4 hn
  · rw [hostAccess, e]; exact ⟨rfl, rfl⟩
  · rw [hostAccess, e]; exact ⟨rfl, rfl⟩
  · rw [hostAccess, e]; exact ⟨rfl, writeReg_hostFault v s _⟩

/-- Settles O42: `misaligned` is the answer ERROR with the report set, and each aligned access ends in `answer .ok`. -/
theorem misalignedAccessIsAnsweredWithError : Obligations.MisalignedAccessIsAnsweredWithError := by
  intro s addr v
  refine ⟨fun h => hostAccess_misaligned v h, fun h4 => ?_⟩
  obtain ⟨hread, hreadFault⟩ := hostAccess_read_aligned (s := s) h4
  obtain ⟨hwrite, hwriteFault⟩ := hostAccess_write_aligned (s := s) v h4
  exact ⟨hread, hwrite, hreadFault, hwriteFault⟩

/-! ### The order of events (R89) -/

theorem step_engine_idle {s : State} {rest : List Event} (hs : s.script = .engine :: rest) (hb : s.busy = false) :
    step s = .next { s with script := rest } := by
  simp only [step, advance, hs, takeEvent, engineTurn, hb, Bool.false_eq_true, if_false]

theorem step_script_over_idle {s : State} (hs : s.script = []) (hb : s.busy = false) : step s = .next s := by
  simp only [step, advance, hs, engineTurn, hb, Bool.false_eq_true, if_false]

/-- Settles O8, event by event. -/
theorem eventsHappenInScriptOrder : Obligations.EventsHappenInScriptOrder :=
  fun _ _ => ⟨fun _ => step_host, step_reset, fun hb hs => step_engine_idle hs hb,
    fun hb hs => step_script_over_idle hs hb⟩

end Sys2Proof.Machine
end

section
/-! PROOFS of the statements of 30_encoding.md: the fields of a command word as numbers, from them what R115 and R118
say of the decoder's answer, and the statements as readings of that one characterisation. -/

namespace Sys2Proof

/-! ### Fields of a command word (R110) -/

theorem fieldHigh_toNat (v : Word) : (fieldHigh v).toNat = v.toNat / 2 ^ 7 := by
  have := v.isLt
  rw [fieldHigh, BitVec.extractLsb'_toNat, Nat.shiftRight_eq_div_pow]
  omega

theorem fieldOpc_toNat (v : Word) : (fieldOpc v).toNat = v.toNat % 16 := by
  simp [fieldOpc]

theorem operandField_toNat (v : Word) : (v.extractLsb' 4 3).toNat = v.toNat / 16 % 8 := by
  simp [Nat.shiftRight_eq_div_pow]

theorem dirOpField_toNat (v : Word) : (v.extractLsb' 5 2).toNat = v.toNat / 32 % 4 := by
  simp [Nat.shiftRight_eq_div_pow]

theorem getLsbD_toNat (v : Word) (k : Nat) : (v.getLsbD k).toNat = v.toNat / 2 ^ k % 2 := by
  rw [← BitVec.testBit_toNat, Nat.toNat_testBit]

theorem fieldCtx_code (v : Word) : (fieldCtx v).code = v.toNat / 16 % 2 := by
  refine Eq.trans ?_ (getLsbD_toNat v 4)
  rw [fieldCtx]
  cases v.getLsbD 4 <;> rfl

theorem fieldDir_code (v : Word) : (fieldDir v).code = v.toNat / 32 % 2 := by
  refine Eq.trans ?_ (getLsbD_toNat v 5)
  rw [fieldDir]
  cases v.getLsbD 5 <;> rfl

theorem fieldOp_code (v : Word) : (fieldOp v).code = v.toNat / 64 % 2 := by
  refine Eq.trans ?_ (getLsbD_toNat v 6)
  rw [fieldOp]
  cases v.getLsbD 6 <;> rfl

/-- The weights of R118 put CTX, DIR and OP back into bits 6:4. -/
theorem operandBits_fields (v : Word) :
    operandBits (fieldCtx v) (fieldDir v) (fieldOp v) = 16 * (v.toNat / 16 % 8) := by
  rw [operandBits, fieldCtx_code, fieldDir_code, fieldOp_code]
  omega

/-- A word below 2^7 is its opcode with its operand bits. -/
theorem eq_ofNat_of_fields {v : Word} {opc bits : Nat} (hhigh : fieldHigh v = 0#25)
    (hopc : (fieldOpc v).toNat = opc) (hbits : bits = 16 * (v.toNat / 16 % 8)) :
    BitVec.ofNat 32 (opc + bits) = v := by
  have hhigh : v.toNat / 2 ^ 7 = 0 := by rw [← fieldHigh_toNat, hhigh]; rfl
  rw [fieldOpc_toNat] at hopc
  have hsum : opc + bits = v.toNat := by omega
  rw [hsum, BitVec.ofNat_toNat, BitVec.setWidth_eq]

/-! ### The cases of a reserved word (R115), by fields -/

theorem highBitsSet_iff (v : Word) : v.highBitsSet = true ↔ fieldHigh v ≠ 0#25 := by
  rw [Word.highBitsSet, decide_eq_true_iff, ← BitVec.toNat_ne_iff_ne, fieldHigh_toNat, BitVec.toNat_ofNat]
  omega

theorem highBitsSet_eq_false_iff (v : Word) : v.highBitsSet = false ↔ fieldHigh v = 0#25 := by
  rw [← Bool.not_eq_true, highBitsSet_iff, not_not]

theorem badOpcode_iff (v : Word) : v.badOpcode = true ↔ (fieldOpc v).toNat = 0 ∨ 8 ≤ (fieldOpc v).toNat := by
  rw [Word.badOpcode, decide_eq_true_iff, fieldOpc_toNat]

theorem badCrcFields_iff (v : Word) :
    v.badCrcFields = true ↔
      1 ≤ (fieldOpc v).toNat ∧ (fieldOpc v).toNat ≤ 4 ∧ v.extractLsb' 4 3 ≠ 0#3 := by
  rw [Word.badCrcFields, decide_eq_true_iff, fieldOpc_toNat, ← BitVec.toNat_ne_iff_ne, operandField_toNat]
  rfl

theorem badDeriveFields_iff (v : Word) :
    v.badDeriveFields = true ↔ (fieldOpc v).toNat = 7 ∧ v.extractLsb' 5 2 ≠ 0#2 := by
  rw [Word.badDeriveFields, decide_eq_true_iff, fieldOpc_toNat, ← BitVec.toNat_ne_iff_ne, dirOpField_toNat]
  rfl

/-- The decoder's name `e` is the right one for `v`: the first case of R115 that applies, in the order of R117. -/
def ReservedWord.Names (v : Word) : ReservedWord → Prop
  | .highBits => v.highBitsSet = true
  | .opcode => v.highBitsSet = false ∧ v.badOpcode = true
  | .crcFields => v.highBitsSet = false ∧ v.badCrcFields = true
  | .deriveFields => v.highBitsSet = false ∧ v.badDeriveFields = true

theorem reserved_eq_true_iff (v : Word) :
    v.reserved = true ↔
      v.highBitsSet = true ∨ v.badOpcode = true ∨ v.badCrcFields = true ∨ v.badDeriveFields = true := by
  simp only [Word.reserved, Bool.or_eq_true, or_assoc]

theorem ReservedWord.Names.reserved {v : Word} {e : ReservedWord} (h : e.Names v) : v.reserved = true := by
  rw [reserved_eq_true_iff]
  cases e with
  | highBits => exact .inl h
  | opcode => exact .inr (.inl h.2)
  | crcFields => exact .inr (.inr (.inl h.2))
  | deriveFields => exact .inr (.inr (.inr h.2))

/-- The cases exclude each other: high bits are clear in the last three, which are about different opcodes. -/
theorem ReservedWord.Names.eq_ite {v : Word} {e : ReservedWord} (h : e.Names v) :
    e = if v.highBitsSet = true then .highBits
      else if (fieldOpc v).toNat = 7 then .deriveFields
      else if 1 ≤ (fieldOpc v).toNat ∧ (fieldOpc v).toNat ≤ 4 then .crcFields else .opcode := by
  cases e with
  | highBits => exact (if_pos (show v.highBitsSet = true from h)).symm
  | opcode =>
    obtain ⟨hclear, hbad⟩ := h
    rw [badOpcode_iff] at hbad
    rw [if_neg (by simp [hclear]), if_neg (by omega), if_neg (by omega)]
  | crcFields =>
    obtain ⟨hclear, hbad⟩ := h
    obtain ⟨hmin, hmax, -⟩ := (badCrcFields_iff v).1 hbad
    rw [if_neg (by simp [hclear]), if_neg (by omega), if_pos ⟨hmin, hmax⟩]
  | deriveFields =>
    obtain ⟨hclear, hbad⟩ := h
    obtain ⟨hopc, -⟩ := (badDeriveFields_iff v).1 hbad
    rw [if_neg (by simp [hclear]), if_pos hopc]

/-! ### Decoder and encoder (R117, R118) -/

/-- What R115 and R118 say of `v` when the decoder answers `r`. -/
def IsDecoding (v : Word) : Except ReservedWord Instr → Prop
  | .ok i => encode i = v
  | .error e => e.Names v

theorem decodeBare_isDecoding {v : Word} {i : Instr} (hhigh : fieldHigh v = 0#25)
    (hopc : (fieldOpc v).toNat = i.opcode) (hcrc : 1 ≤ i.opcode ∧ i.opcode ≤ 4)
    (hword : encode i = BitVec.ofNat 32 i.opcode) : IsDecoding v (decodeBare v i) := by
  rw [decodeBare]
  split
  next hzero =>
    have hbits : 0 = 16 * (v.toNat / 16 % 8) := by rw [← operandField_toNat, hzero]; rfl
    exact hword.trans (eq_ofNat_of_fields hhigh hopc hbits)
  next hset =>
    exact ⟨(highBitsSet_eq_false_iff v).2 hhigh, (badCrcFields_iff v).2 ⟨hopc ▸ hcrc.1, hopc ▸ hcrc.2, hset⟩⟩

theorem decode_isDecoding (v : Word) : IsDecoding v (decode v) := by
  rw [decode]
  split
  next hhigh => exact (highBitsSet_iff v).2 hhigh
  next hhigh =>
    have hhigh := not_not.1 hhigh
    have hclear := (highBitsSet_eq_false_iff v).2 hhigh
    split
    next hopc => exact decodeBare_isDecoding hhigh hopc (by decide) rfl
    next hopc => exact decodeBare_isDecoding hhigh hopc (by decide) rfl
    next hopc => exact decodeBare_isDecoding hhigh hopc (by decide) rfl
    next hopc => exact decodeBare_isDecoding hhigh hopc (by decide) rfl
    next hopc => exact eq_ofNat_of_fields hhigh hopc (operandBits_fields v)
    next hopc => exact eq_ofNat_of_fields hhigh hopc (operandBits_fields v)
    next hopc =>
      split
      next hzero =>
        have hbits : operandBits (fieldCtx v) .send .encipher = 16 * (v.toNat / 16 % 8) := by
          have hdirOp : v.toNat / 32 % 4 = 0 := by rw [← dirOpField_toNat, hzero]; rfl
          simp only [operandBits, fieldCtx_code, Dir.code, CipherOp.code]
          omega
        exact eq_ofNat_of_fields hhigh hopc hbits
      next hset => exact ⟨hclear, (badDeriveFields_iff v).2 ⟨hopc, hset⟩⟩
    next => exact ⟨hclear, (badOpcode_iff v).2 (by grind)⟩

theorem wordShape (i : Instr) : Laws.WordShape.Statement i := by
  cases i with
  | crc16 => exact Laws.WordShape.crc16
  | crc16a => exact Laws.WordShape.crc16a
  | crc32 => exact Laws.WordShape.crc32
  | crc32a => exact Laws.WordShape.crc32a
  | cbc1 c d o => exact Laws.WordShape.cbc1 c d o
  | cbcn c d o => exact Laws.WordShape.cbcn c d o
  | derive c => exact Laws.WordShape.derive c

/-- The word of a command decodes to it, and no case of R115 holds for it. -/
theorem encode_legal (i : Instr) : decode (encode i) = .ok i ∧ (encode i).reserved = false := by
  cases i with
  | crc16 => exact ⟨rfl, rfl⟩
  | crc16a => exact ⟨rfl, rfl⟩
  | crc32 => exact ⟨rfl, rfl⟩
  | crc32a => exact ⟨rfl, rfl⟩
  | cbc1 c d o => cases c <;> cases d <;> cases o <;> exact ⟨rfl, rfl⟩
  | cbcn c d o => cases c <;> cases d <;> cases o <;> exact ⟨rfl, rfl⟩
  | derive c => cases c <;> exact ⟨rfl, rfl⟩

theorem decode_encode (i : Instr) : decode (encode i) = .ok i := (encode_legal i).1

theorem encode_not_reserved (i : Instr) : (encode i).reserved = false := (encode_legal i).2

theorem decode_eq_ok_iff (v : Word) (i : Instr) : decode v = .ok i ↔ encode i = v := by
  constructor
  · intro h
    have hdec := decode_isDecoding v
    rwa [h] at hdec
  · rintro rfl
    exact decode_encode i

theorem decode_eq_error_iff (v : Word) (e : ReservedWord) : decode v = .error e ↔ e.Names v := by
  have hdec := decode_isDecoding v
  constructor
  · intro h
    rwa [h] at hdec
  · intro hname
    cases h : decode v with
    | ok i =>
      rw [h] at hdec
      have hword : encode i = v := hdec
      exact absurd hname.reserved (by rw [← hword, encode_not_reserved]; decide)
    | error f =>
      rw [h] at hdec
      exact congrArg _ ((ReservedWord.Names.eq_ite hdec).trans hname.eq_ite.symm)

theorem decode_rejects_iff (v : Word) : (∃ e, decode v = .error e) ↔ v.reserved = true := by
  constructor
  · rintro ⟨e, h⟩
    exact ((decode_eq_error_iff v e).1 h).reserved
  · intro h
    cases hd : decode v with
    | ok i =>
      rw [← (decode_eq_ok_iff v i).1 hd, encode_not_reserved] at h
      exact nomatch h
    | error e => exact ⟨e, rfl⟩

/-- Settles O2: a word decodes to `i` exactly when it is `encode i`. -/
theorem decodeAndEncodeAgree : Obligations.DecodeAndEncodeAgree :=
  ⟨fun i _ => decode_encode i, fun v i h => ⟨(wordShape i).1, (decode_eq_ok_iff v i).1 h⟩⟩

/-- Settles O3: each clause is `decode_eq_error_iff` at one name. -/
theorem decoderRejectsExactlyReservedWords : Obligations.DecoderRejectsExactlyReservedWords := fun v =>
  ⟨decode_rejects_iff v, decode_eq_error_iff v .highBits, decode_eq_error_iff v .opcode,
    decode_eq_error_iff v .crcFields, decode_eq_error_iff v .deriveFields⟩

/-- Settles O1: each word is `encode` of its command. -/
theorem legalWordsDecodeToTheirCommands : Obligations.LegalWordsDecodeToTheirCommands :=
  ⟨decode_encode .crc16, decode_encode .crc16a, decode_encode .crc32, decode_encode .crc32a,
    decode_encode (.cbc1 .explicit .send .encipher), decode_encode (.cbc1 .session .send .encipher),
    decode_encode (.cbc1 .explicit .receive .encipher), decode_encode (.cbc1 .explicit .send .decipher),
    decode_encode (.cbcn .session .send .decipher), decode_encode (.cbcn .session .receive .decipher),
    decode_encode (.derive .explicit), decode_encode (.derive .session)⟩

/-! ### The opcode table -/

/-- Every word that matches the row has `value` in the `len` bits from `start` on: the mask has these bits. -/
def OpcodeRow.fixes (r : OpcodeRow) (start len : Nat) (value : BitVec len) : Bool :=
  r.mask.extractLsb' start len == BitVec.allOnes len && r.pattern.extractLsb' start len == value

theorem OpcodeRow.fixes.extractLsb'_eq {r : OpcodeRow} {start len : Nat} {value : BitVec len}
    (h : r.fixes start len value = true) {v : Word} (hv : r.matches v = true) : v.extractLsb' start len = value := by
  obtain ⟨hmask, hpattern⟩ := Bool.and_eq_true_iff.1 h
  have hbits : v &&& r.mask = r.pattern := eq_of_beq hv
  rw [← eq_of_beq hpattern, ← hbits, BitVec.extractLsb'_and, eq_of_beq hmask, BitVec.and_allOnes]

/-- The rows fix the fields that R111 fixes. -/
theorem opcodeTable_fixes :
    ∀ r ∈ opcodeTable, r.fixes 7 25 0 = true ∧
      ∃ opc : BitVec 4, r.fixes 0 4 opc = true ∧ 1 ≤ opc.toNat ∧ opc.toNat ≤ 7 ∧
        (opc.toNat ≤ 4 → r.fixes 4 3 0 = true) ∧ (opc.toNat = 7 → r.fixes 5 2 0 = true) := by
  decide

theorem ReservedWord.Names.matches_eq_false {v : Word} {e : ReservedWord} (h : e.Names v) {r : OpcodeRow}
    (hr : r ∈ opcodeTable) : r.matches v = false := by
  obtain ⟨hhigh, opc, hopc, hmin, hmax, hcrc, hderive⟩ := opcodeTable_fixes r hr
  by_contra hm
  have hm : r.matches v = true := Bool.eq_true_of_not_eq_false hm
  obtain rfl : fieldOpc v = opc := OpcodeRow.fixes.extractLsb'_eq hopc hm
  cases e with
  | highBits => exact (highBitsSet_iff v).1 h (OpcodeRow.fixes.extractLsb'_eq hhigh hm)
  | opcode =>
    have := (badOpcode_iff v).1 h.2
    omega
  | crcFields =>
    obtain ⟨-, hle, hset⟩ := (badCrcFields_iff v).1 h.2
    exact hset (OpcodeRow.fixes.extractLsb'_eq (hcrc hle) hm)
  | deriveFields =>
    obtain ⟨heq, hset⟩ := (badDeriveFields_iff v).1 h.2
    exact hset (OpcodeRow.fixes.extractLsb'_eq (hderive heq) hm)

/-- Settles O4: the word of a command has its own row (`Laws.WordShape`), and a reserved word misses the fields that
every row fixes. -/
theorem opcodeTableMatchesDecoder : Obligations.OpcodeTableMatchesDecoder := by
  intro v
  cases h : decode v with
  | ok i =>
    obtain ⟨-, -, -, hrow⟩ := wordShape i
    rw [← (decode_eq_ok_iff v i).1 h]
    exact hrow
  | error e =>
    have hname := (decode_eq_error_iff v e).1 h
    have hnone : opcodeTable.filter (fun r => r.matches v) = [] :=
      List.filter_eq_nil_iff.2 fun r hr => by simp [hname.matches_eq_false hr]
    rw [hnone]
    rfl

end Sys2Proof

namespace Sys2Proof.Machine

/-! ### A reserved word as a command (R115, R231) -/

theorem engineStep_of_reserved {s : State} (h : s.pend.reserved = true) :
    engineStep s = .next (raiseError .opcode s) := by
  obtain ⟨e, he⟩ := (decode_rejects_iff s.pend).2 h
  simp only [engineStep, he]

theorem run_two_of_step {s t u : State} (h : step s = .next t) (h' : step t = .next u) :
    Host.Core.run core 2 s = .next u :=
  (run_succ_of_step (M := core) 1 h).trans (run_succ_of_step (M := core) 0 h')

/-- Settles O5: the write is `acceptCommand`, and the engine's turn is `raiseError .opcode`. -/
theorem reservedWordIsAcceptedAndFails : Obligations.ReservedWordIsAcceptedAndFails := by
  intro v s rest hres hidle hscript
  have haccept : step s =
      .next (answer .ok none (acceptCommand v { s with script := .engine :: rest })) :=
    (step_host hscript).trans (congrArg _ (hostAccess_write_cmd v hidle))
  have hfail : step (answer .ok none (acceptCommand v { s with script := .engine :: rest })) =
      .next (raiseError .opcode (answer .ok none (acceptCommand v { s with script := rest }))) :=
    (step_engine rfl rfl).trans (engineStep_of_reserved ((reserved_eq_true_iff v).2 hres))
  refine ⟨haccept, (run_two_of_step haccept hfail).trans ?_⟩
  simp only [raiseError, endCommand, answer, acceptCommand, errValue, hidle]

end Sys2Proof.Machine
end

section
/-! PROOFS of the statements of 40_checksum.md: a reflected CRC is XOR-linear, and a register that is fed its own low
byte only shifts; from these the bit-serial form and the zero residue, and from one rule for each way in which the
shared pseudocode of R146 to R149 can end, the four commands. -/

namespace Sys2Proof.Machine

/-! ### Steps of a reflected CRC (R141, R143) -/

theorem lfsrStep_of_getLsbD_zero {w : Nat} (p : BitVec w) {c : BitVec w} (h : c.getLsbD 0 = false) :
    lfsrStep p c = c >>> 1 := by simp [lfsrStep, h]

theorem lfsrStep_xor {w : Nat} (p c d : BitVec w) : lfsrStep p (c ^^^ d) = lfsrStep p c ^^^ lfsrStep p d := by
  simp only [lfsrStep, BitVec.getLsbD_xor, BitVec.ushiftRight_xor_distrib]
  cases c.getLsbD 0 <;> cases d.getLsbD 0
  case true.true =>
    have hcancel : p ^^^ (d >>> 1 ^^^ p) = d >>> 1 := by
      rw [BitVec.xor_comm p, BitVec.xor_assoc, BitVec.xor_self, BitVec.xor_zero]
    simp [BitVec.xor_assoc, hcancel]
  all_goals simp <;> ac_rfl

theorem lfsrSteps_xor {w : Nat} (p : BitVec w) (n : Nat) (c d : BitVec w) :
    lfsrSteps p n (c ^^^ d) = lfsrSteps p n c ^^^ lfsrSteps p n d := by
  induction n generalizing c d with
  | zero => rfl
  | succ n ih => simp only [lfsrSteps, lfsrStep_xor, ih]

/-- Steps that shift out only zeros are a plain shift. -/
theorem lfsrSteps_of_low_bits_zero {w : Nat} (p : BitVec w) (n : Nat) {c : BitVec w}
    (h : ∀ i < n, c.getLsbD i = false) : lfsrSteps p n c = c >>> n := by
  induction n generalizing c with
  | zero => simp [lfsrSteps]
  | succ n ih =>
    rw [lfsrSteps, lfsrStep_of_getLsbD_zero p (h 0 (by omega)),
      ih fun i hi => by simpa using h (1 + i) (by omega), ← BitVec.shiftRight_add, Nat.add_comm]

/-! ### The byte update as one reflected CRC (R140, R141, R143) -/

/-- The byte update of the reflected CRC with polynomial `p`: the common form of `upd16Serial` and `upd32`. -/
def byteUpdate {w : Nat} (p c : BitVec w) (b : Byte) : BitVec w := lfsrSteps p 8 (c ^^^ b.setWidth w)

theorem upd16Serial_eq_byteUpdate : upd16Serial = byteUpdate 0x8408#16 := rfl

theorem upd32_eq_byteUpdate : upd32 = byteUpdate 0xEDB88320#32 := rfl

/-- What a byte that leaves the register of `upd16` puts back into it: the recurrence of R140 after its first line. -/
def foldByte (x : Byte) : BitVec 16 :=
  let ch : Byte := x ^^^ (x <<< 4)
  (ch.setWidth 16 <<< 8) ^^^ (ch.setWidth 16 <<< 3) ^^^ (ch.setWidth 16 >>> 4)

theorem upd16_eq_foldByte (crc : BitVec 16) (b : Byte) :
    upd16 crc b = (crc >>> 8) ^^^ foldByte (b ^^^ crc.setWidth 8) := by
  simp only [upd16, foldByte, BitVec.xor_assoc]

/-- The bits of `ch` are those that the eight steps XOR the polynomial in for. -/
theorem lfsrSteps_setWidth_byte : ∀ x : Byte, lfsrSteps 0x8408#16 8 (x.setWidth 16) = foldByte x := by
  decide

/-- XORing a byte into a CRC register changes its low byte only; both halves of the result, apart. -/
theorem xor_setWidth_eq_high_xor_low (crc : BitVec 16) (b : Byte) :
    crc ^^^ b.setWidth 16 = (crc >>> 8 <<< 8) ^^^ (b ^^^ crc.setWidth 8).setWidth 16 := by
  apply BitVec.eq_of_getLsbD_eq
  intro i hi
  by_cases h : i < 8
  · simp [h, hi, Bool.xor_comm]
  · simp [h, hi, Nat.add_sub_of_le (Nat.not_lt.1 h), BitVec.getLsbD_of_ge b i (by omega)]

/-- Settles O10: the steps are linear, so they shift the high byte down and fold the low byte. -/
theorem crc16UpdateEqualsBitSerialForm : Obligations.Crc16UpdateEqualsBitSerialForm := by
  intro crc b
  have hhigh : lfsrSteps 0x8408#16 8 (crc >>> 8 <<< 8) = crc >>> 8 := by
    rw [lfsrSteps_of_low_bits_zero _ _ fun i hi => by simp [hi]]
    apply BitVec.eq_of_getLsbD_eq
    intro i hi
    by_cases h : 8 + i < 16
    · simp [h]
    · simp [h, BitVec.getLsbD_of_ge crc (8 + i) (by omega)]
  rw [upd16Serial, xor_setWidth_eq_high_xor_low, lfsrSteps_xor, hhigh, lfsrSteps_setWidth_byte, upd16_eq_foldByte]

theorem upd16_eq_byteUpdate : upd16 = byteUpdate 0x8408#16 := by
  rw [← upd16Serial_eq_byteUpdate]
  exact funext₂ crc16UpdateEqualsBitSerialForm

/-! ### The zero residue (R145, R150) -/

/-- A register that is fed its own low byte only shifts. -/
theorem byteUpdate_low_byte {w : Nat} (p c : BitVec w) : byteUpdate p c (c.extractLsb' 0 8) = c >>> 8 := by
  have hlow : ∀ i < 8, (c ^^^ (c.extractLsb' 0 8).setWidth w).getLsbD i = false := fun i hi => by
    by_cases h : i < w
    · simp [hi, h]
    · simp [h, BitVec.getLsbD_of_ge c i (Nat.not_lt.1 h)]
  rw [byteUpdate, lfsrSteps_of_low_bits_zero p 8 hlow]
  apply BitVec.eq_of_getLsbD_eq
  intro i hi
  simp

/-- The register fed the lowest `n` bytes of its own value, the least significant first, is shifted out. -/
theorem foldl_byteUpdate_own_bytes {w : Nat} (p c : BitVec w) (n : Nat) :
    ((List.range n).map fun i => c.extractLsb' (8 * i) 8).foldl (byteUpdate p) c = c >>> (8 * n) := by
  induction n with
  | zero => simp
  | succ n ih =>
    have hbyte : c.extractLsb' (8 * n) 8 = (c >>> (8 * n)).extractLsb' 0 8 := by
      apply BitVec.eq_of_getLsbD_eq
      intro i hi
      simp
    rw [List.range_succ, List.map_append, List.foldl_append, ih, List.map_singleton, List.foldl_cons, List.foldl_nil,
      hbyte, byteUpdate_low_byte, ← BitVec.shiftRight_add]
    rfl

theorem crc16_append_own_bytes (s : List Byte) :
    crc16 (s ++ (List.range 2).map fun i => (crc16 s).extractLsb' (8 * i) 8) = 0 := by
  rw [crc16, List.foldl_append, ← crc16, upd16_eq_byteUpdate, foldl_byteUpdate_own_bytes]
  exact BitVec.ushiftRight_eq_zero (by decide)

theorem crc32_append_own_bytes (s : List Byte) :
    crc32 (s ++ (List.range 4).map fun i => (crc32 s).extractLsb' (8 * i) 8) = 0 := by
  rw [crc32, List.foldl_append, ← crc32, upd32_eq_byteUpdate, foldl_byteUpdate_own_bytes]
  exact BitVec.ushiftRight_eq_zero (by decide)

/-- Settles O11: the appended bytes shift the CRC out of its register. -/
theorem checksumResidueIsZero : Obligations.ChecksumResidueIsZero := fun s =>
  ⟨crc16_append_own_bytes s, crc32_append_own_bytes s⟩

/-! ### The appended bytes (R145) -/

/-- The zero residue of a CRC as CRCR holds it: a string followed by the `k` bytes that the append form writes has the
CRC 0. -/
def HasZeroResidue (k : Nat) (crc : List Byte → Word) : Prop := ∀ s, crc (s ++ leBytes k (crc s)) = 0

/-- Extending a number with zeros leaves its bytes. -/
theorem wordByte_setWidth {w : Nat} (c : BitVec w) (hw : w ≤ 32) (i : Nat) :
    wordByte (c.setWidth 32) i = c.extractLsb' (8 * i) 8 := by
  apply BitVec.eq_of_getLsbD_eq
  intro j hj
  by_cases h : 8 * i + j < 32
  · simp [wordByte, hj, h]
  · simp [wordByte, h, BitVec.getLsbD_of_ge c (8 * i + j) (by omega)]

theorem leBytes_crc16Word (k : Nat) (s : List Byte) :
    leBytes k (crc16Word s) = (List.range k).map fun i => (crc16 s).extractLsb' (8 * i) 8 :=
  List.map_congr_left fun i _ => wordByte_setWidth (crc16 s) (by decide) i

theorem hasZeroResidue_crc16Word : HasZeroResidue 2 crc16Word := fun s => by
  rw [leBytes_crc16Word, crc16Word, crc16_append_own_bytes]
  rfl

theorem hasZeroResidue_crc32 : HasZeroResidue 4 crc32 := crc32_append_own_bytes

theorem crc16Word_eq_zero_iff (s : List Byte) : crc16Word s = 0 ↔ crc16 s = 0 := by
  constructor
  · intro h
    simpa [crc16Word] using congrArg (BitVec.setWidth 16) h
  · intro h
    rw [crc16Word, h]
    rfl

/-- What was stored in BUF as a word reads as its bytes. -/
theorem memRead_memWrite_leBytes (s : State) (a k : Nat) (v : Word) :
    memRead (memWrite s a (leBytes k v)) a k = leBytes k v :=
  List.map_congr_left fun _ hi => bufByte_memWrite_leBytes s a v (List.mem_range.1 hi)

/-! ### How a CRC command ends (R146 to R149) -/

/-- The words with the opcode of a CRC command that are not its word are reserved (R115 (a), (c)). -/
theorem engineStep_of_crc_opcode {s : State} {opc : Nat} (hopc : s.pend.toNat % 16 = opc)
    (hcrc : 1 ≤ opc ∧ opc ≤ 4) (hbits : s.pend.toNat / 16 ≠ 0) :
    engineStep s = .next { s with err := 1, busy := false, done := true } := by
  refine engineStep_of_reserved ((reserved_eq_true_iff _).2 ?_)
  by_cases hhigh : 2 ^ 7 ≤ s.pend.toNat
  · exact .inl (decide_eq_true hhigh)
  · exact .inr (.inr (.inl (decide_eq_true ⟨by omega, by omega, by omega⟩)))

/-- The CRC of the input of a CRC command that starts in `s`. -/
def inputCrc (crc : List Byte → Word) (s : State) : Word := crc (memRead s s.off.toNat s.len.toNat)

/-- The state in which a CRC command with `k` appended bytes ends when it fits in BUF. -/
def checksumDone (k : Nat) (crc : List Byte → Word) (s : State) : State :=
  complete (setCrc (inputCrc crc s) (memWrite s (s.off.toNat + s.len.toNat) (leBytes k (inputCrc crc s))))

theorem checksumCommand_of_fits {k : Nat} (crc : List Byte → Word) {s : State}
    (h : s.off.toNat + s.len.toNat + k ≤ s.params.bufBytes) :
    checksumCommand k crc s = checksumDone k crc s := by
  rcases checksumCommand_cases k crc s with ⟨hover, -⟩ | ⟨-, e⟩
  · omega
  · exact e

theorem checksumCommand_of_overrun {k : Nat} (crc : List Byte → Word) {s : State}
    (h : s.params.bufBytes < s.off.toNat + s.len.toNat + k) :
    checksumCommand k crc s = { s with err := 4, busy := false, done := true } := by
  rcases checksumCommand_cases k crc s with ⟨-, e⟩ | ⟨hfits, -⟩
  · exact e
  · omega

/-- A plain form writes no byte of BUF. -/
theorem checksumDone_zero (crc : List Byte → Word) (s : State) :
    checksumDone 0 crc s = { s with
      crcr := inputCrc crc s, cz := decide (inputCrc crc s = 0), err := 0, busy := false, done := true } := rfl

theorem bufByte_checksumDone_appended {k : Nat} (crc : List Byte → Word) (s : State) {i : Nat} (hi : i < k) :
    bufByte (checksumDone k crc s) (s.off.toNat + s.len.toNat + i) = wordByte (inputCrc crc s) i :=
  bufByte_memWrite_leBytes s _ _ hi

theorem bufByte_checksumDone_outside {k : Nat} (crc : List Byte → Word) (s : State) {x : Nat}
    (h : x < s.off.toNat + s.len.toNat ∨ s.off.toNat + s.len.toNat + k ≤ x) :
    bufByte (checksumDone k crc s) x = bufByte s x :=
  bufByte_memWrite_outside s (by rwa [leBytes_length])

theorem inputCrc_of_len_zero (crc : List Byte → Word) {s : State} (h : s.len = 0) : inputCrc crc s = crc [] := by
  rw [inputCrc, h]
  rfl

/-- The plain form over the empty string gives the seed, also with OFF at the end of BUF. -/
theorem checksumCommand_of_len_zero (crc : List Byte → Word) {s : State} (hlen : s.len = 0)
    (hoff : s.off.toNat ≤ s.params.bufBytes) :
    checksumCommand 0 crc s = { s with
      crcr := crc [], cz := decide (crc [] = 0), err := 0, busy := false, done := true } := by
  rw [checksumCommand_of_fits crc (by simpa [hlen] using hoff), checksumDone_zero, inputCrc_of_len_zero crc hlen]

/-- The input of the plain form that is run over what an append form left: the old input and the appended bytes. -/
theorem memRead_checksumDone (k : Nat) (crc : List Byte → Word) (s : State) :
    memRead (checksumDone k crc s) s.off.toNat (s.len.toNat + k) =
      memRead s s.off.toNat s.len.toNat ++ leBytes k (inputCrc crc s) := by
  rw [memRead_append]
  congr 1
  · exact memRead_congr fun i hi => bufByte_checksumDone_outside crc s (.inl (by omega))
  · exact memRead_memWrite_leBytes s _ k _

/-- The plain form after the append form gives 0 (R150). -/
theorem checksumCommand_after_append {k : Nat} {crc : List Byte → Word} (hres : HasZeroResidue k crc) {s : State}
    (hfits : s.off.toNat + s.len.toNat + k ≤ s.params.bufBytes) {n : Half} (hn : n.toNat = s.len.toNat + k) :
    checksumCommand 0 crc { checksumDone k crc s with len := n } =
      { checksumDone k crc s with len := n, crcr := 0, cz := true } := by
  have hzero : inputCrc crc { checksumDone k crc s with len := n } = 0 := by
    have hread : memRead { checksumDone k crc s with len := n } s.off.toNat n.toNat =
        memRead s s.off.toNat s.len.toNat ++ leBytes k (inputCrc crc s) := hn ▸ memRead_checksumDone k crc s
    exact (congrArg crc hread).trans (hres _)
  have hfits' : s.off.toNat + n.toNat + 0 ≤ s.params.bufBytes := by omega
  rw [checksumCommand_of_fits crc hfits', checksumDone_zero, hzero]
  rfl

/-! ### The commands -/

/-- The CRC-32 of "123456789" (V-CRC-5). -/
theorem crc32_check_value : crc32 [0x31, 0x32, 0x33, 0x34, 0x35, 0x36, 0x37, 0x38, 0x39] = 0x340BC6D9#32 := by
  decide +kernel

/-- FF FF FF FF are the bytes of the CRC-32 of the empty string, so this is its residue (R148). -/
theorem crc32_four_ones : crc32 [0xFF, 0xFF, 0xFF, 0xFF] = 0 := crc32_append_own_bytes []

/-- Settles O12: the ways in which the shared pseudocode ends, with nothing appended. -/
theorem crc16Command : Obligations.Crc16Command := by
  refine ⟨rfl, fun s hopc hbits => engineStep_of_crc_opcode hopc (by decide) hbits, by decide, fun s =>
    ⟨fun hfits => congrArg _ ((checksumCommand_of_fits crc16Word hfits).trans ?_),
      fun hlen hoff => congrArg _ (checksumCommand_of_len_zero crc16Word hlen hoff),
      fun hover => congrArg _ (checksumCommand_of_overrun crc16Word hover)⟩⟩
  simp only [checksumDone_zero, inputCrc, crc16Word_eq_zero_iff]
  rfl

/-- Settles O13: `checksumDone` and the rule for each of its bytes; the run afterwards meets the residue. -/
theorem crc16AppendCommand : Obligations.Crc16AppendCommand := by
  refine ⟨rfl, fun s hopc hbits => engineStep_of_crc_opcode hopc (by decide) hbits, by decide, rfl, fun s =>
    ⟨fun hfits => ?_, fun hover => congrArg _ (checksumCommand_of_overrun crc16Word hover)⟩⟩
  have hbyte : ∀ i < 2, bufByte (checksumDone 2 crc16Word s) (s.off.toNat + s.len.toNat + i) =
      (crc16 (memRead s s.off.toNat s.len.toNat)).extractLsb' (8 * i) 8 := fun i hi =>
    (bufByte_checksumDone_appended crc16Word s hi).trans (wordByte_setWidth _ (by decide) i)
  refine ⟨checksumDone 2 crc16Word s, congrArg _ (checksumCommand_of_fits crc16Word hfits), fun x => ?_, ?_,
    fun hlen => congrArg _ (checksumCommand_after_append hasZeroResidue_crc16Word hfits ?_)⟩
  · split_ifs with h0 h1
    · rw [h0]
      exact hbyte 0 (by decide)
    · rw [h1]
      exact hbyte 1 (by decide)
    · exact bufByte_checksumDone_outside crc16Word s (by omega)
  · simp only [← crc16Word_eq_zero_iff]
    rfl
  · rw [BitVec.toNat_add_of_lt hlen]
    rfl

/-- Settles O14: the ways in which the shared pseudocode ends, with nothing appended. -/
theorem crc32Command : Obligations.Crc32Command := by
  refine ⟨rfl, fun s hopc hbits => engineStep_of_crc_opcode hopc (by decide) hbits, crc32_four_ones,
    crc32_check_value, fun s =>
    ⟨fun hfits => congrArg _ ((checksumCommand_of_fits crc32 hfits).trans (checksumDone_zero crc32 s)),
      fun hlen hoff => congrArg _ (checksumCommand_of_len_zero crc32 hlen hoff),
      fun hover => congrArg _ (checksumCommand_of_overrun crc32 hover)⟩⟩

/-- Settles O15: `checksumDone` and the rule for each of its bytes; the run afterwards meets the residue. -/
theorem crc32AppendCommand : Obligations.Crc32AppendCommand := by
  refine ⟨rfl, fun s hopc hbits => engineStep_of_crc_opcode hopc (by decide) hbits, rfl, crc32_check_value, fun s =>
    ⟨fun hfits => ?_, fun hover => congrArg _ (checksumCommand_of_overrun crc32 hover)⟩⟩
  refine ⟨checksumDone 4 crc32 s, congrArg _ (checksumCommand_of_fits crc32 hfits),
    fun i hi => bufByte_checksumDone_appended crc32 s hi, fun x hx => bufByte_checksumDone_outside crc32 s hx, rfl,
    fun hlen => congrArg _ (checksumCommand_after_append hasZeroResidue_crc32 hfits ?_)⟩
  rw [BitVec.toNat_add_of_lt hlen]
  rfl

/-! ### What the CRC commands read and write (R151) -/

/-- A CRC command is the shared pseudocode with the number of bytes it appends and its CRC. -/
theorem exec_eq_checksumCommand {i : Instr} (hi : i = .crc16 ∨ i = .crc16a ∨ i = .crc32 ∨ i = .crc32a) :
    ∃ k crc, ∀ s, exec i s = .next (checksumCommand k crc s) ∧ reach i s = s.off.toNat + s.len.toNat + k := by
  rcases hi with rfl | rfl | rfl | rfl
  · exact ⟨0, crc16Word, fun _ => ⟨rfl, rfl⟩⟩
  · exact ⟨2, crc16Word, fun _ => ⟨rfl, rfl⟩⟩
  · exact ⟨0, crc32, fun _ => ⟨rfl, rfl⟩⟩
  · exact ⟨4, crc32, fun _ => ⟨rfl, rfl⟩⟩

/-- Settles O16: the two commands fail alike, or read the same input and append the same bytes. -/
theorem checksumCommandsTouchOnlyTheirState : Obligations.ChecksumCommandsTouchOnlyTheirState := by
  intro i s₁ s₂ hi hparams hoff hlen hbuf
  obtain ⟨k, crc, hexec⟩ := exec_eq_checksumCommand hi
  refine ⟨_, _, (hexec s₁).1, (hexec s₂).1, ?_⟩
  rw [(hexec s₁).2]
  by_cases hfits : s₁.off.toNat + s₁.len.toNat + k ≤ s₁.params.bufBytes
  · have hinput : inputCrc crc s₁ = inputCrc crc s₂ := by
      rw [inputCrc, inputCrc, ← hoff, ← hlen, memRead_congr fun j hj => hbuf _ (by omega)]
    rw [checksumCommand_of_fits crc hfits, checksumCommand_of_fits crc (hparams ▸ hoff ▸ hlen ▸ hfits)]
    refine ⟨rfl, fun _ => ⟨hinput, congrArg (fun r : Word => decide (r = 0)) hinput⟩, fun x hx => ?_,
      fun x hx => bufByte_checksumDone_outside crc s₁ hx, rfl⟩
    simp only [checksumDone, bufByte_complete, bufByte_setCrc, bufByte_memWrite, ← hinput, ← hoff, ← hlen, hbuf x hx]
  · have hover := Nat.not_le.1 hfits
    rw [checksumCommand_of_overrun crc hover, checksumCommand_of_overrun crc (hparams ▸ hoff ▸ hlen ▸ hover)]
    exact ⟨rfl, fun h : (4 : BitVec 4) = 0 => absurd h (by decide), hbuf, fun _ _ => rfl, rfl⟩

end Sys2Proof.Machine
end

section
/-! PROOFS of the statements of 41_keys_subkeys.md, first part: the component keys and the block operation
(R170 to R174). -/

namespace Sys2Proof.Machine

/-! ### Component keys (R171) -/

/-- A slice depends only on the bytes it takes. -/
theorem sliceOf_congr {n i m : Nat} {s t : Bytes n} (hin : i + m ≤ n)
    (h : ∀ (j : Nat) (hj : j < n), i ≤ j → j < i + m → s[j] = t[j]) : sliceOf s i m = sliceOf t i m := by
  ext j hj
  have hlt : i + j < n := by omega
  rw [sliceOf_getElem _ _ _ _ hj, sliceOf_getElem _ _ _ _ hj, byteAt_lt s hlt, byteAt_lt t hlt,
    h (i + j) hlt (by omega) (by omega)]

/-- The block operation reads no byte of KEY that its type does not use. -/
theorem cipher_congr_key (P : Primitives) (t : KeyType) {k₁ k₂ : Bytes 24} (o : CipherOp) (x : Bytes t.blockSize)
    (h : ∀ (i : Nat) (_ : i < 24), (i < 8 ∨ (t ≠ .des ∧ i < 16) ∨ t = .tdes3) → k₁[i] = k₂[i]) :
    cipher P t k₁ o x = cipher P t k₂ o x := by
  have hk1 : key1 k₁ = key1 k₂ := sliceOf_congr (by decide) fun i hi _ hlt => h i hi (.inl (by omega))
  cases t with
  | des => cases o <;> simp only [cipher, hk1] <;> rfl
  | tdes2 =>
    have hk2 : key2 k₁ = key2 k₂ :=
      sliceOf_congr (by decide) fun i hi _ hlt => h i hi (.inr (.inl ⟨nofun, by omega⟩))
    cases o <;> simp only [cipher, hk1, hk2] <;> rfl
  | tdes3 =>
    have hall : k₁ = k₂ := Vector.ext fun i hi => h i hi (.inr (.inr rfl))
    rw [hall]
  | aes =>
    have hka : keyA k₁ = keyA k₂ :=
      sliceOf_congr (by decide) fun i hi _ hlt => h i hi (.inr (.inl ⟨nofun, by omega⟩))
    cases o <;> simp only [cipher, hka] <;> rfl

/-- Settles O17: each component key is a slice of KEY, and the block operation sees KEY through them. -/
theorem componentKeysAreConsecutiveSlices : Obligations.ComponentKeysAreConsecutiveSlices := by
  refine ⟨fun key i hi => ⟨?_, ?_, ?_⟩, fun key i hi => ?_, fun t => by cases t <;> rfl, cipher_congr_key⟩
  · rw [key1, sliceOf_getElem _ _ _ _ hi, Nat.zero_add, byteAt_lt]
  · rw [key2, sliceOf_getElem _ _ _ _ hi, Nat.add_comm, byteAt_lt]
  · rw [key3, sliceOf_getElem _ _ _ _ hi, Nat.add_comm, byteAt_lt]
  · rw [keyA, sliceOf_getElem _ _ _ _ hi, Nat.zero_add, byteAt_lt]

/-- Settles O18: `cipher` by its cases. -/
theorem blockOperationDispatch : Obligations.BlockOperationDispatch :=
  fun _ _ _ _ => ⟨rfl, rfl, rfl, rfl, rfl, rfl, rfl, rfl⟩

/-- Settles O19: the inner primitive undoes the first, since they run under one key. -/
theorem equalHalvesMakeTripleDesSingleDes : Obligations.EqualHalvesMakeTripleDesSingleDes := by
  intro P k₁ k₂ o x hDE hED hhalves hkey
  cases o with
  | encipher =>
    calc P.desE (key1 k₁) (P.desD (key2 k₁) (P.desE (key1 k₁) x))
        = P.desE (key1 k₁) x := by rw [← hhalves, hDE]
      _ = P.desE (key1 k₂) x := by rw [hkey]
  | decipher =>
    calc P.desD (key1 k₁) (P.desE (key2 k₁) (P.desD (key1 k₁) x))
        = P.desD (key1 k₁) x := by rw [← hhalves, hED]
      _ = P.desD (key1 k₂) x := by rw [hkey]

end Sys2Proof.Machine
end

section
/-! PROOFS of the statements of 41_keys_subkeys.md, second part: blocks as big-endian numbers, doubling bit by bit, and
DERIVE (R176 to R179). -/

namespace Sys2Proof.Machine

/-! ### Big-endian numbers (R9) -/

theorem beNat_push {n : Nat} (x : Bytes n) (b : Byte) : beNat (x.push b) = beNat x * 2 ^ 8 + b.toNat := by
  simp [beNat]

/-- The last byte of a big-endian string is the lowest one of the number. -/
theorem beBytes_succ (n v : Nat) : beBytes (n + 1) v = (beBytes n (v / 2 ^ 8)).push (BitVec.ofNat 8 v) := by
  ext i hi
  by_cases hlast : i = n
  · simp [beBytes, hlast]
  · have hshift : 8 * (n + 1 - 1 - i) = 8 + 8 * (n - 1 - i) := by omega
    have hlt : i < n := by omega
    rw [beBytes_getElem _ _ _ hi, Vector.getElem_push_lt hlt, beBytes_getElem _ _ _ hlt, hshift, Nat.shiftRight_add,
      Nat.shiftRight_eq_div_pow v]

theorem beNat_beBytes (n v : Nat) : beNat (beBytes n v) = v % 2 ^ (8 * n) := by
  induction n generalizing v with
  | zero => rw [Nat.mul_zero, Nat.pow_zero, Nat.mod_one]; rfl
  | succ n ih =>
    calc beNat (beBytes (n + 1) v)
        = v / 2 ^ 8 % 2 ^ (8 * n) * 2 ^ 8 + v % 2 ^ 8 := by rw [beBytes_succ, beNat_push, ih, BitVec.toNat_ofNat]
      _ = v % (2 ^ 8 * 2 ^ (8 * n)) := by rw [Nat.mod_mul, Nat.mul_comm, Nat.add_comm]
      _ = v % 2 ^ (8 * (n + 1)) := by rw [← Nat.pow_add, Nat.add_comm, ← Nat.mul_add_one]

theorem beNat_lt {n : Nat} (x : Bytes n) : beNat x < 2 ^ (8 * n) := by
  induction n with
  | zero => rw [Vector.eq_empty (xs := x)]; decide
  | succ n ih =>
    rw [← Vector.push_pop_back x, beNat_push, Nat.mul_add_one 8 n, Nat.pow_add]
    have hpop := ih x.pop
    have hback := x.back.isLt
    omega

theorem beBytes_beNat {n : Nat} (x : Bytes n) : beBytes n (beNat x) = x := by
  induction n with
  | zero => exact Vector.eq_empty.trans Vector.eq_empty.symm
  | succ n ih =>
    rw [← Vector.push_pop_back x, beNat_push, beBytes_succ]
    have hback := x.back.isLt
    have hdiv : (beNat x.pop * 2 ^ 8 + x.back.toNat) / 2 ^ 8 = beNat x.pop := by omega
    have hmod : BitVec.ofNat 8 (beNat x.pop * 2 ^ 8 + x.back.toNat) = x.back :=
      BitVec.eq_of_toNat_eq (by rw [BitVec.toNat_ofNat]; omega)
    rw [hdiv, hmod, ih x.pop]

theorem beNat_injective (n : Nat) : Function.Injective (beNat (n := n)) :=
  Function.LeftInverse.injective beBytes_beNat

theorem beNat_zero (n : Nat) : beNat (Bytes.zero n) = 0 := by
  have hzero : beBytes n 0 = Bytes.zero n := Vector.ext fun i hi => by simp [Bytes.zero]
  rw [← hzero, beNat_beBytes, Nat.zero_mod]

/-! ### Doubling (R176) -/

theorem subkeyRb_lt (b : Nat) : subkeyRb b < 2 ^ 8 := by
  rw [subkeyRb]
  split <;> decide

/-- The number of the doubled block: the carry out of the top bit brings Rb in. -/
theorem beNat_dbl {b : Nat} (hb : 0 < b) (x : Bytes b) :
    beNat (dbl x) =
      if (beNat x).testBit (8 * b - 1) then (beNat x <<< 1) % 2 ^ (8 * b) ^^^ subkeyRb b
      else (beNat x <<< 1) % 2 ^ (8 * b) := by
  have hshift : (beNat x <<< 1) % 2 ^ (8 * b) < 2 ^ (8 * b) := Nat.mod_lt _ (Nat.two_pow_pos _)
  have hRb : subkeyRb b < 2 ^ (8 * b) := (subkeyRb_lt b).trans_le (Nat.pow_le_pow_right (by decide) (by omega))
  rw [dbl, beNat_beBytes]
  split
  · exact Nat.mod_eq_of_lt (Nat.xor_lt_two_pow hshift hRb)
  · exact Nat.mod_eq_of_lt hshift

/-- A number of `k + 1` bits has its top bit set exactly when it is at least the weight of that bit. -/
theorem testBit_top_iff {v k : Nat} (h : v < 2 ^ (k + 1)) : v.testBit k = true ↔ 2 ^ k ≤ v := by
  constructor
  · exact Nat.ge_two_pow_of_testBit
  · intro hle
    have hquot : v / 2 ^ k = 1 := Nat.div_eq_of_lt_le (by omega) (by rw [Nat.pow_succ] at h; omega)
    rw [Nat.testBit_eq_decide_div_mod_eq, hquot]
    rfl

/-- Settles O20: `beNat_dbl` at the two block sizes, and the inverse pair `beNat`, `beBytes`. -/
theorem doublingIsBigEndianShiftWithRb : Obligations.DoublingIsBigEndianShiftWithRb := by
  refine ⟨fun x => ?_, fun x => ?_, fun n x => ⟨beNat_lt x, beBytes_beNat x⟩⟩
  · rw [beNat_dbl (by decide), Nat.shiftLeft_eq, Nat.pow_one, Nat.mul_comm (beNat x)]
    simp only [testBit_top_iff (k := 63) (beNat_lt x)]
    rfl
  · rw [beNat_dbl (by decide), Nat.shiftLeft_eq, Nat.pow_one, Nat.mul_comm (beNat x)]
    simp only [testBit_top_iff (k := 127) (beNat_lt x)]
    rfl

/-! ### The bits of a doubled block (R178) -/

theorem subkeyRb_odd (b : Nat) : (subkeyRb b).testBit 0 = true := by
  rw [subkeyRb]
  split <;> decide

/-- The lowest bit of the doubled block is the bit that fell out. -/
theorem testBit_zero_beNat_dbl {b : Nat} (hb : 0 < b) (x : Bytes b) :
    (beNat (dbl x)).testBit 0 = (beNat x).testBit (8 * b - 1) := by
  rw [beNat_dbl hb]
  cases (beNat x).testBit (8 * b - 1) <;> simp [Nat.testBit_mod_two_pow, subkeyRb_odd, -Nat.testBit_zero]

/-- Every other bit comes from the bit below it, with Rb XORed in when the top bit fell out. -/
theorem testBit_succ_beNat_dbl {b i : Nat} (x : Bytes b) (hi : i + 1 < 8 * b) :
    (beNat (dbl x)).testBit (i + 1) =
      ((beNat x).testBit i ^^ ((beNat x).testBit (8 * b - 1) && (subkeyRb b).testBit (i + 1))) := by
  rw [beNat_dbl (by omega)]
  cases (beNat x).testBit (8 * b - 1) <;> simp [Nat.testBit_mod_two_pow, hi]

/-- The doubled block has the bits of the block: the top one as its lowest, and each other one under Rb. -/
theorem dbl_injective {b : Nat} (hb : 0 < b) : Function.Injective (dbl : Bytes b → Bytes b) := by
  intro x y hxy
  have htop : (beNat x).testBit (8 * b - 1) = (beNat y).testBit (8 * b - 1) := by
    rw [← testBit_zero_beNat_dbl hb, ← testBit_zero_beNat_dbl hb, hxy]
  refine beNat_injective b (Nat.eq_of_testBit_eq fun i => ?_)
  by_cases hi : i + 1 < 8 * b
  · have hbit := testBit_succ_beNat_dbl x hi
    rw [hxy, testBit_succ_beNat_dbl y hi, htop] at hbit
    exact (Bool.xor_left_inj.1 hbit).symm
  · by_cases hlast : i = 8 * b - 1
    · rw [hlast, htop]
    · have hle : 2 ^ (8 * b) ≤ 2 ^ i := Nat.pow_le_pow_right (by decide) (by omega)
      rw [Nat.testBit_lt_two_pow ((beNat_lt x).trans_le hle), Nat.testBit_lt_two_pow ((beNat_lt y).trans_le hle)]

/-- Blocks of one size are finitely many, so doubling is onto as well. -/
theorem dbl_bijective {b : Nat} (hb : 0 < b) : Function.Bijective (dbl : Bytes b → Bytes b) := by
  have hfinite : Finite (Bytes b) :=
    Finite.of_injective (fun x : Bytes b => (⟨beNat x, beNat_lt x⟩ : Fin (2 ^ (8 * b))))
      fun x y h => beNat_injective b (congrArg Fin.val h)
  exact (dbl_injective hb).bijective_of_finite

/-- In a block that is its own double a clear bit is followed by clear bits, as far as Rb is not XORed in. -/
theorem testBit_eq_false_of_dbl_eq {b k : Nat} {x : Bytes b} (h : dbl x = x) (hk : (beNat x).testBit k = false)
    (hRb : ∀ i, k ≤ i → ((beNat x).testBit (8 * b - 1) && (subkeyRb b).testBit (i + 1)) = false) {i : Nat}
    (hki : k ≤ i) (hi : i < 8 * b) : (beNat x).testBit i = false := by
  induction i, hki using Nat.le_induction with
  | base => exact hk
  | succ i hki ih =>
    have hbit := testBit_succ_beNat_dbl x hi
    rwa [h, ih (by omega), hRb i hki] at hbit

/-- Bit 7 of a block that is its own double is the parity of Rb if the top bit is set. Both values of Rb have an even
number of ones, all below bit 8, so the bits from 7 up to the top one are clear. -/
theorem top_clear_of_dbl_eq {b : Nat} (hb : 0 < b) {x : Bytes b} (h : dbl x = x) :
    (beNat x).testBit (8 * b - 1) = false := by
  refine eq_false_of_ne_true fun htop => ?_
  have hzero := testBit_zero_beNat_dbl hb x
  have hsucc (i : Nat) (hi : i + 1 < 8 * b) := testBit_succ_beNat_dbl x hi
  rw [h, htop] at hzero
  simp only [h, htop, Bool.true_and] at hsucc
  have hseven : (beNat x).testBit 7 = false := by
    rw [hsucc 6 (by omega), hsucc 5 (by omega), hsucc 4 (by omega), hsucc 3 (by omega), hsucc 2 (by omega),
      hsucc 1 (by omega), hsucc 0 (by omega), hzero, subkeyRb]
    split <;> decide
  have hRb (i : Nat) (hi : 7 ≤ i) : (subkeyRb b).testBit (i + 1) = false :=
    Nat.testBit_lt_two_pow ((subkeyRb_lt b).trans_le (Nat.pow_le_pow_right (by decide) (by omega)))
  have hclear := testBit_eq_false_of_dbl_eq h hseven (fun i hi => by rw [hRb i hi, Bool.and_false])
    (i := 8 * b - 1) (by omega) (by omega)
  exact absurd htop (by rw [hclear]; decide)

/-- Doubling fixes only the zero block. -/
theorem dbl_eq_self_iff {b : Nat} (hb : 0 < b) (x : Bytes b) : dbl x = x ↔ x = Bytes.zero b := by
  constructor
  · intro h
    have htop := top_clear_of_dbl_eq hb h
    have hlow : (beNat x).testBit 0 = false := by rw [← h, testBit_zero_beNat_dbl hb, htop]
    refine beNat_injective b (Nat.eq_of_testBit_eq fun i => ?_)
    rw [beNat_zero, Nat.zero_testBit]
    by_cases hi : i < 8 * b
    · exact testBit_eq_false_of_dbl_eq h hlow (fun _ _ => by rw [htop, Bool.false_and]) (Nat.zero_le i) hi
    · exact Nat.testBit_lt_two_pow ((beNat_lt x).trans_le (Nat.pow_le_pow_right (by decide) (by omega)))
  · rintro rfl
    exact beNat_injective b (by simp [beNat_dbl hb, beNat_zero])

/-! ### DERIVE (R177) -/

/-- The padded subkey determines the block that was padded. -/
theorem padZero_injective {n m : Nat} (h : n ≤ m) : Function.Injective (padZero (n := n) m) := by
  intro x y hxy
  refine Vector.ext fun i hi => ?_
  have him : i < m := by omega
  have hbyte := congrArg (fun s : Bytes m => s[i]) hxy
  simpa only [padZero_getElem _ _ _ him, byteAt_lt _ hi] using hbyte

/-- K1 = K2 exactly when L is zero (90_conflicts.md C5). -/
theorem subkey1_eq_subkey2_iff (P : Primitives) (t : KeyType) (key : Bytes 24) :
    subkey1 P t key = subkey2 P t key ↔ subkeyL P t key = Bytes.zero t.blockSize := by
  have hb := t.blockSize_pos
  calc subkey1 P t key = subkey2 P t key
      ↔ dbl (subkeyL P t key) = dbl (dbl (subkeyL P t key)) := (padZero_injective t.blockSize_le).eq_iff
    _ ↔ subkeyL P t key = dbl (subkeyL P t key) := (dbl_injective hb).eq_iff
    _ ↔ subkeyL P t key = Bytes.zero t.blockSize := by rw [eq_comm, dbl_eq_self_iff hb]

/-- The state in which DERIVE on a committed key of context `c` ends. -/
def deriveDone (c : Ctx) (s : State) : State :=
  complete (setSubkeys c (subkey1 Config.primitives (s.ctx c).keyType (s.ctx c).key)
    (subkey2 Config.primitives (s.ctx c).keyType (s.ctx c).key) s)

theorem exec_derive_of_key {c : Ctx} {s : State} (h : (s.ctx c).kvalid = true) :
    exec (.derive c) s = .next (deriveDone c s) := by
  rcases deriveCommand_cases Config.primitives c s with ⟨hn, -⟩ | ⟨-, e⟩
  · exact absurd h (by simp [hn])
  · exact congrArg _ e

theorem exec_derive_of_no_key {c : Ctx} {s : State} (h : (s.ctx c).kvalid = false) :
    exec (.derive c) s = .next (raiseError .nokey s) := by
  rcases deriveCommand_cases Config.primitives c s with ⟨-, e⟩ | ⟨hk, -⟩
  · exact congrArg _ e
  · exact absurd h (by simp [hk])

@[simp] theorem ctx_deriveDone (c : Ctx) (s : State) :
    (deriveDone c s).ctx c = { s.ctx c with
      k1 := subkey1 Config.primitives (s.ctx c).keyType (s.ctx c).key,
      k2 := subkey2 Config.primitives (s.ctx c).keyType (s.ctx c).key, skvalid := true } := by
  rw [deriveDone, ctx_complete, ctx_setSubkeys_same]

@[simp] theorem bufByte_deriveDone (c : Ctx) (s : State) (x : Nat) : bufByte (deriveDone c s) x = bufByte s x := by
  rw [deriveDone, bufByte_complete, bufByte_setSubkeys]

/-- The subkeys are computed again from the TYPE and KEY that the first DERIVE left (R178, R179). -/
theorem deriveDone_deriveDone (c : Ctx) (s : State) : deriveDone c (deriveDone c s) = deriveDone c s := by
  cases c <;> rfl

/-- Settles O21: the two subkeys are one doubling apart. -/
theorem subkeysAreEqualExactlyForZeroL : Obligations.SubkeysAreEqualExactlyForZeroL := by
  refine ⟨⟨dbl_bijective (by decide), dbl_eq_self_iff (by decide)⟩,
    ⟨dbl_bijective (by decide), dbl_eq_self_iff (by decide)⟩, fun c s hk =>
    ⟨deriveDone c s, exec_derive_of_key hk, ?_⟩⟩
  rw [ctx_deriveDone]
  exact subkey1_eq_subkey2_iff _ _ _

/-- The words with the opcode of DERIVE that are not its words are reserved (R115 (a), (d)). -/
theorem engineStep_of_derive_opcode {s : State} (hopc : s.pend.toNat % 16 = 7) (hbits : s.pend.toNat / 32 ≠ 0) :
    engineStep s = .next { s with err := 1, busy := false, done := true } := by
  refine engineStep_of_reserved ((reserved_eq_true_iff _).2 ?_)
  by_cases hhigh : 2 ^ 7 ≤ s.pend.toNat
  · exact .inl (decide_eq_true hhigh)
  · exact .inr (.inr (.inr (decide_eq_true ⟨by omega, by omega⟩)))

/-- Settles O22: `deriveDone` with a committed key, ERR_NOKEY without. (`deriveCommand` is the model's own name.) -/
theorem deriveCommand_meets_spec : Obligations.DeriveCommand := by
  refine ⟨rfl, rfl, fun s => engineStep_of_derive_opcode, fun c s =>
    ⟨fun hk => ⟨deriveDone c s, exec_derive_of_key hk, fun i hi => ?_, bufByte_deriveDone c s, ?_⟩,
      exec_derive_of_no_key⟩⟩
  · simp only [ctx_deriveDone, subkey1, subkey2, padZero_getElem, and_self]
  · simp only [ctx_deriveDone]
    rfl

/-- Settles O23: the subkeys are functions of TYPE and KEY, which DERIVE leaves. -/
theorem deriveIsDeterministic : Obligations.DeriveIsDeterministic := by
  intro c s₁ s₂ hk₁ hk₂ htype hkey
  have hk : ((deriveDone c s₁).ctx c).kvalid = true := by rw [ctx_deriveDone]; exact hk₁
  refine ⟨_, _, exec_derive_of_key hk₁, exec_derive_of_key hk₂, ?_, ?_, ?_⟩
  · simp only [ctx_deriveDone, htype, hkey]
  · simp only [ctx_deriveDone, htype, hkey]
  · rw [exec_derive_of_key hk, deriveDone_deriveDone]

end Sys2Proof.Machine
end

section
/-! PROOFS about whole commands, of the statements that rest on 41_keys_subkeys.md and 42_block_chaining.md alike: what
a failed command changes (60_exceptions.md R236), and Send undone by Receive (R198). -/

namespace Sys2Proof.Machine

/-! ### Failed commands (R236) -/

/-- Settles O33: of the ways in which a command ends only `CommandEnd.failed` sets an error code. -/
theorem failedCommandChangesOnlyStatus : Obligations.FailedCommandChangesOnlyStatus := by
  intro s t h herr
  have hfailed : ∃ e, t = raiseError e s := by
    obtain ⟨u, hu, hend⟩ := engineStep_commandEnd s
    obtain rfl : u = t := Host.Outcome.next.inj (hu.symm.trans h)
    rcases hend with ⟨i, -, hi⟩ | rfl
    · cases hi with
      | failed e => exact ⟨e, rfl⟩
      | checksum hi r m => exact absurd rfl herr
      | chained c hi iv m => exact absurd rfl herr
      | derived c hi hk => exact absurd rfl herr
    · exact ⟨.opcode, rfl⟩
  obtain ⟨e, rfl⟩ := hfailed
  exact ⟨rfl, bufByte_raiseError e s⟩

/-! ### The block operation and the chaining step under the inversion hypothesis (R198) -/

/-- The operation and its inverse run the inverse primitives under the same component keys in the opposite order. -/
theorem cipher_inverseOp_cipher {P : Primitives} (hP : P.Inverts) (t : KeyType) (key : Bytes 24) (o : CipherOp)
    (x : Bytes t.blockSize) : cipher P t key (inverseOp o) (cipher P t key o x) = x := by
  cases t with
  | des => cases o; exacts [hP.desD_desE _ x, hP.desE_desD _ x]
  | tdes2 =>
    change Bytes 8 at x
    cases o <;> simp only [cipher, inverseOp, hP.desD_desE, hP.desE_desD] <;> rfl
  | tdes3 =>
    change Bytes 8 at x
    cases o <;> simp only [cipher, inverseOp, hP.desD_desE, hP.desE_desD] <;> rfl
  | aes => cases o; exacts [hP.aesD_aesE _ x, hP.aesE_aesD _ x]

/-- The block that a Send step put out, received from the same chaining value, is the block it took in, and the
chaining values agree again. -/
theorem cbcStep_receive_send {P : Primitives} (hP : P.Inverts) (t : KeyType) (key : Bytes 24) (o : CipherOp)
    (x iv : Bytes t.blockSize) :
    cbcStep P t key .receive (inverseOp o) (cbcStep P t key .send o x iv).1 iv =
      (x, (cbcStep P t key .send o x iv).2) := by
  simp only [cbcStep, cipher_inverseOp_cipher hP, xorBytes_cancel]

/-! ### The loop of CBCN (R195) -/

/-- A block stored in BUF, byte by byte. -/
theorem bufByte_memWrite_block {n : Nat} (s : State) (a : Nat) (x : Bytes n) {i : Nat} (hi : i < n) :
    bufByte (memWrite s a x.toList) (a + i) = x[i] := by
  rw [bufByte_memWrite_inside s a (by rwa [Vector.length_toList]), Vector.getElem_toList]

theorem bufByte_memWrite_block_outside {n : Nat} (s : State) (a : Nat) (x : Bytes n) {y : Nat}
    (h : y < a ∨ a + n ≤ y) : bufByte (memWrite s a x.toList) y = bufByte s y :=
  bufByte_memWrite_outside s (by rwa [Vector.length_toList])

/-- On Send the loop ends with its last output block as the chaining value. -/
theorem cbcLoop_send_chain (P : Primitives) (t : KeyType) (key : Bytes 24) (o : CipherOp) (blocks a : Nat)
    (iv : Bytes t.blockSize) (s : State) :
    (cbcLoop P t key .send o (blocks + 1) a iv s).2 =
      readBlock (cbcLoop P t key .send o (blocks + 1) a iv s).1 (a + blocks * t.blockSize) t.blockSize := by
  induction blocks generalizing a iv s with
  | zero =>
    rw [Nat.zero_mul, Nat.add_zero]
    exact (cbcLoop_first_block P t key .send o 1 a iv s Nat.one_ne_zero).symm
  | succ n ih =>
    have hnext : a + (n + 1) * t.blockSize = a + t.blockSize + n * t.blockSize := by rw [Nat.succ_mul]; omega
    rw [cbcLoop, ih, hnext]

/-- A Receive loop from the same chaining value, over the blocks that a Send loop left, puts the input of the Send loop
back and ends with the same chaining value. -/
theorem cbcLoop_receive_send {P : Primitives} (hP : P.Inverts) (t : KeyType) (key : Bytes 24) (o : CipherOp)
    (blocks a : Nat) (iv : Bytes t.blockSize) (s u : State)
    (hu : ∀ x, a ≤ x → x < a + blocks * t.blockSize →
      bufByte u x = bufByte (cbcLoop P t key .send o blocks a iv s).1 x) :
    (∀ x, a ≤ x → x < a + blocks * t.blockSize →
      bufByte (cbcLoop P t key .receive (inverseOp o) blocks a iv u).1 x = bufByte s x) ∧
      (cbcLoop P t key .receive (inverseOp o) blocks a iv u).2 = (cbcLoop P t key .send o blocks a iv s).2 := by
  induction blocks generalizing a iv s u with
  | zero => exact ⟨fun x _ _ => by omega, rfl⟩
  | succ n ih =>
    have hsize : (n + 1) * t.blockSize = t.blockSize + n * t.blockSize := by rw [Nat.succ_mul, Nat.add_comm]
    rw [hsize] at hu ⊢
    have hread : readBlock u a t.blockSize = (cbcStep P t key .send o (readBlock s a t.blockSize) iv).1 := by
      rw [← cbcLoop_first_block P t key .send o (n + 1) a iv s (Nat.succ_ne_zero n)]
      exact readBlock_congr fun i hi => hu (a + i) (by omega) (by omega)
    have hstep : cbcStep P t key .receive (inverseOp o) (readBlock u a t.blockSize) iv =
        (readBlock s a t.blockSize, (cbcStep P t key .send o (readBlock s a t.blockSize) iv).2) := by
      rw [hread, cbcStep_receive_send hP]
    rw [cbcLoop, cbcLoop, hstep]
    rw [cbcLoop] at hu
    obtain ⟨hrest, hchain⟩ := ih (a + t.blockSize) (cbcStep P t key .send o (readBlock s a t.blockSize) iv).2
      (memWrite s a (cbcStep P t key .send o (readBlock s a t.blockSize) iv).1.toList)
      (memWrite u a (readBlock s a t.blockSize).toList) fun x hx hlt => by
        rw [bufByte_memWrite_block_outside _ _ _ (.inr hx)]
        exact hu x (by omega) (by omega)
    refine ⟨fun x hx hlt => ?_, hchain⟩
    by_cases hfirst : x < a + t.blockSize
    · obtain ⟨i, rfl⟩ := Nat.exists_eq_add_of_le hx
      have hi : i < t.blockSize := by omega
      rw [cbcLoop_outside _ _ _ _ _ _ _ _ _ _ (.inl hfirst), bufByte_memWrite_block _ _ _ hi, readBlock_getElem]
    · rw [hrest x (by omega) (by omega), bufByte_memWrite_block_outside _ _ _ (.inr (by omega))]

/-! ### CBCN where it completes (R195) -/

/-- The loop of a CBCN that starts in `s` and passes its checks: the state before the IV is written, and the new IV. -/
def cbcnLoop (P : Primitives) (c : Ctx) (d : Dir) (o : CipherOp) (s : State) :
    State × Bytes (s.ctx c).keyType.blockSize :=
  cbcLoop P (s.ctx c).keyType (s.ctx c).key d o (s.len.toNat / (s.ctx c).keyType.blockSize) s.off.toNat (startIv c s)
    (legacyReset c s)

theorem chainIv_zero {k : KeyContext} (h : k.iv = Bytes.zero 16) {b : Nat} (hb : b ≤ 16) :
    chainIv k b = Bytes.zero b := by
  refine Vector.ext fun i hi => ?_
  have h16 : i < 16 := by omega
  simp only [chainIv_getElem _ _ _ hi h16, h, Vector.getElem_replicate]

theorem chainIv_legacyReset (c : Ctx) (s : State) :
    chainIv ((legacyReset c s).ctx c) (s.ctx c).keyType.blockSize = startIv c s := by
  have hle := (s.ctx c).keyType.blockSize_le
  rw [startIv]
  split
  next h =>
    obtain ⟨rfl, hg⟩ := h
    rw [legacyReset_session s hg, ctx_setIv_same]
    exact chainIv_zero rfl hle
  next h =>
    rcases legacyReset_cases c s with e | ⟨hc, hg, -⟩
    · rw [e]
    · exact absurd ⟨hc, hg⟩ h

theorem cbcnCommand_of_checks (P : Primitives) (c : Ctx) (d : Dir) (o : CipherOp) {s : State}
    (hk : (s.ctx c).kvalid = true) (hmod : s.len.toNat % (s.ctx c).keyType.blockSize = 0)
    (hin : s.off.toNat + s.len.toNat ≤ s.params.bufBytes) :
    cbcnCommand P c d o s = complete (setIvFirst c (cbcnLoop P c d o s).2 (cbcnLoop P c d o s).1) := by
  rcases cbcnCommand_cases P c d o s with ⟨hn, -⟩ | ⟨-, hn, -⟩ | ⟨-, -, hn, -⟩ | ⟨-, -, -, r, rfl, e⟩
  · exact absurd hk (by simp [hn])
  · exact absurd hmod hn
  · omega
  · rw [e, chainIv_legacyReset]
    rfl

theorem setIv_complete (c : Ctx) (v : Bytes 16) (s : State) : setIv c v (complete s) = complete (setIv c v s) := by
  cases c <;> rfl

/-- Beside BUF the loop of CBCN and the write of the IV change only the IV of the context. -/
theorem setIvFirst_cbcnLoop (P : Primitives) (c : Ctx) (d : Dir) (o : CipherOp) (s : State) :
    ∃ iv m, setIvFirst c (cbcnLoop P c d o s).2 (cbcnLoop P c d o s).1 = setIv c iv { s with buf := m } := by
  obtain ⟨m, hm⟩ := cbcLoop_writes_buf_only P (s.ctx c).keyType (s.ctx c).key d o
    (s.len.toNat / (s.ctx c).keyType.blockSize) s.off.toNat (startIv c s) (legacyReset c s)
  rw [cbcnLoop, hm, setIvFirst, setIv_legacyReset]
  exact ⟨_, m, rfl⟩

/-- With the IV put back, a CBCN that completes leaves the completed state with another BUF. -/
theorem setIv_back_cbcn (P : Primitives) (c : Ctx) (d : Dir) (o : CipherOp) (s : State) :
    ∃ m, setIv c (s.ctx c).iv (complete (setIvFirst c (cbcnLoop P c d o s).2 (cbcnLoop P c d o s).1)) =
      complete { s with buf := m } := by
  obtain ⟨iv, m, h⟩ := setIvFirst_cbcnLoop P c d o s
  refine ⟨m, ?_⟩
  have hback : setIv c (s.ctx c).iv { s with buf := m } = { s with buf := m } := setCtx_ctx { s with buf := m } c
  rw [h, setIv_complete, setIv_setIv, hback]

theorem chainIv_replaceFirst {n : Nat} (hn : n ≤ 16) (v : Bytes n) (k : KeyContext) :
    chainIv { k with iv := replaceFirst v k.iv } n = v := by
  refine Vector.ext fun i hi => ?_
  have h16 : i < 16 := by omega
  rw [chainIv_getElem _ _ _ hi h16, replaceFirst_getElem _ _ _ h16, if_pos hi, byteAt_lt v hi]

/-- The chaining value that a completed chaining command leaves. -/
theorem chainIv_complete_setIvFirst {n : Nat} (hn : n ≤ 16) (c : Ctx) (v : Bytes n) (s : State) :
    chainIv ((complete (setIvFirst c v s)).ctx c) n = v := by
  rw [ctx_complete, ctx_setIvFirst_same, chainIv_replaceFirst hn]

/-! ### Send, then Receive (R198) -/

/-- On Send the new IV is the last block of the window. -/
theorem cbcnLoop_send_chain (P : Primitives) (c : Ctx) (o : CipherOp) {s : State}
    (hmod : s.len.toNat % (s.ctx c).keyType.blockSize = 0) (hlen : 0 < s.len.toNat) :
    (cbcnLoop P c .send o s).2 =
      readBlock (cbcnLoop P c .send o s).1 (s.off.toNat + s.len.toNat - (s.ctx c).keyType.blockSize)
        (s.ctx c).keyType.blockSize := by
  have hdvd := Nat.dvd_of_mod_eq_zero hmod
  have hblocks : 0 < s.len.toNat / (s.ctx c).keyType.blockSize :=
    Nat.div_pos (Nat.le_of_dvd hlen hdvd) (s.ctx c).keyType.blockSize_pos
  obtain ⟨n, hn⟩ := Nat.exists_eq_succ_of_ne_zero hblocks.ne'
  have hlast : s.off.toNat + s.len.toNat - (s.ctx c).keyType.blockSize =
      s.off.toNat + n * (s.ctx c).keyType.blockSize := by
    have hsize := Nat.div_mul_cancel hdvd
    rw [hn, Nat.succ_mul] at hsize
    omega
  rw [cbcnLoop, hlast, hn]
  exact cbcLoop_send_chain P _ _ o n _ _ _

/-- The loop of the Receive that runs on what the Send left, with the IV put back: BUF and the IV. -/
theorem cbcnLoop_receive_send {P : Primitives} (hP : P.Inverts) (c : Ctx) (o : CipherOp) {s : State} {m : Memory}
    (hmod : s.len.toNat % (s.ctx c).keyType.blockSize = 0)
    (hm : ∀ x, bufByte (complete { s with buf := m }) x = bufByte (cbcnLoop P c .send o s).1 x) :
    (∀ x, bufByte (cbcnLoop P c .receive (inverseOp o) (complete { s with buf := m })).1 x = bufByte s x) ∧
      (cbcnLoop P c .receive (inverseOp o) (complete { s with buf := m })).2 = (cbcnLoop P c .send o s).2 := by
  have hsize := Nat.div_mul_cancel (Nat.dvd_of_mod_eq_zero hmod)
  have hreceive : cbcnLoop P c .receive (inverseOp o) (complete { s with buf := m }) =
      cbcLoop P (s.ctx c).keyType (s.ctx c).key .receive (inverseOp o)
        (s.len.toNat / (s.ctx c).keyType.blockSize) s.off.toNat (startIv c s)
        (legacyReset c (complete { s with buf := m })) := rfl
  obtain ⟨hinside, hchain⟩ := cbcLoop_receive_send hP (s.ctx c).keyType (s.ctx c).key o
    (s.len.toNat / (s.ctx c).keyType.blockSize) s.off.toNat (startIv c s) (legacyReset c s)
    (legacyReset c (complete { s with buf := m }))
    fun x _ _ => (bufByte_legacyReset c _ x).trans (hm x)
  rw [hreceive]
  refine ⟨fun x => ?_, hchain⟩
  by_cases hwindow : s.off.toNat ≤ x ∧ x < s.off.toNat + s.len.toNat
  · obtain ⟨hfirst, hlast⟩ := hwindow
    rw [hinside x hfirst (by omega), bufByte_legacyReset]
  · rw [cbcLoop_outside _ _ _ _ _ _ _ _ _ _ (by omega), bufByte_legacyReset, hm, cbcnLoop,
      cbcLoop_outside _ _ _ _ _ _ _ _ _ _ (by omega), bufByte_legacyReset]

/-- Settles O31: with the IV put back, Receive starts in the state of Send but for BUF, and its loop undoes the loop of
Send. -/
theorem sendThenReceiveRoundTrips : Obligations.SendThenReceiveRoundTrips := by
  rintro P c o s hP hk hmod hin t u rfl hu
  have hle := (s.ctx c).keyType.blockSize_le
  obtain ⟨m, hback⟩ := setIv_back_cbcn P c .send o s
  have hm (x : Nat) : bufByte (complete { s with buf := m }) x = bufByte (cbcnLoop P c .send o s).1 x := by
    rw [← hback, bufByte_setIv, bufByte_complete, bufByte_setIvFirst]
  obtain ⟨hbuf, hchain⟩ := cbcnLoop_receive_send hP c o hmod hm
  rw [cbcnCommand_of_checks P c .send o hk hmod hin] at hu ⊢
  rw [hback, cbcnCommand_of_checks P c .receive _ (s := complete { s with buf := m }) hk hmod hin] at hu
  subst hu
  refine ⟨fun x => by rw [bufByte_complete, bufByte_setIvFirst, hbuf], complete_err _, fun hlen => ⟨?_, ?_⟩⟩
  · rw [chainIv_complete_setIvFirst hle, cbcnLoop_send_chain P c o hmod hlen]
    exact readBlock_congr fun i _ => by rw [bufByte_complete, bufByte_setIvFirst]
  · rw [chainIv_complete_setIvFirst hle, ← hchain]
    exact chainIv_complete_setIvFirst hle c _ _

end Sys2Proof.Machine
end

section
/-! PROOFS of the statements of 42_block_chaining.md, first part: what a chaining command that completes does to BUF, to
the IV and to the rest (R190 to R195). -/

namespace Sys2Proof.Machine

/-! ### The chaining step (R190) -/

/-- Settles O24: the two rows of R190. -/
theorem chainingStepInBothDirections : Obligations.ChainingStepInBothDirections :=
  fun _ _ _ _ _ _ => ⟨rfl, rfl⟩

/-! ### Blocks and IVs -/

theorem readBlock_memWrite_same {n : Nat} (s : State) (a : Nat) (x : Bytes n) :
    readBlock (memWrite s a x.toList) a n = x :=
  Vector.ext fun i hi => by rw [readBlock_getElem, bufByte_memWrite_block s a x hi]

theorem readBlock_memWrite_outside {n : Nat} (s : State) (a : Nat) (x : Bytes n) {y m : Nat}
    (h : y + m ≤ a ∨ a + n ≤ y) : readBlock (memWrite s a x.toList) y m = readBlock s y m :=
  readBlock_congr fun _ _ => bufByte_memWrite_block_outside s a x (by omega)

@[simp] theorem readBlock_legacyReset (c : Ctx) (s : State) (a b : Nat) :
    readBlock (legacyReset c s) a b = readBlock s a b :=
  readBlock_congr fun _ _ => bufByte_legacyReset c s _

@[simp] theorem readBlock_complete_setIvFirst {n : Nat} (c : Ctx) (v : Bytes n) (s : State) (a b : Nat) :
    readBlock (complete (setIvFirst c v s)) a b = readBlock s a b :=
  readBlock_congr fun _ _ => (bufByte_complete _ _).trans (bufByte_setIvFirst c v s _)

/-- A write of the first bytes of an IV keeps the bytes past them (R193). -/
theorem iv_complete_setIvFirst_tail {n : Nat} (c : Ctx) (v : Bytes n) (s : State) {j : Nat} (hj : n ≤ j) (h : j < 16) :
    ((complete (setIvFirst c v s)).ctx c).iv[j] = (s.ctx c).iv[j] := by
  simp only [ctx_complete, ctx_setIvFirst_same, replaceFirst_getElem _ _ _ h, if_neg (Nat.not_lt.2 hj)]

theorem replaceFirst_replaceFirst {n m : Nat} (v w : Bytes n) (x : Bytes m) :
    replaceFirst v (replaceFirst w x) = replaceFirst v x := by
  refine Vector.ext fun i hi => ?_
  simp only [replaceFirst_getElem _ _ _ hi]
  split_ifs <;> rfl

theorem replaceFirst_chainIv (k : KeyContext) (b : Nat) : replaceFirst (chainIv k b) k.iv = k.iv := by
  refine Vector.ext fun i hi => ?_
  rw [replaceFirst_getElem _ _ _ hi]
  split_ifs with h
  · rw [byteAt_lt _ h, chainIv_getElem k b i h hi]
  · rfl

/-- The chaining value that a context holds, written back, changes nothing. -/
theorem setIvFirst_chainIv (c : Ctx) (s : State) (b : Nat) :
    setIvFirst c (chainIv (s.ctx c) b) s = s := by
  rw [setIvFirst, replaceFirst_chainIv]
  exact setCtx_ctx s c

/-- The last of two writes of a chaining value counts. -/
theorem setIvFirst_setIvFirst {n : Nat} (c : Ctx) (v w : Bytes n) (s : State) :
    setIvFirst c v (setIvFirst c w s) = setIvFirst c v s := by
  simp only [setIvFirst, ctx_setIv_same, setIv_setIv, replaceFirst_replaceFirst]

/-- The IV bytes of context c after the legacy reset (R196). -/
theorem iv_legacyReset (c : Ctx) (s : State) {j : Nat} (h : j < 16) :
    ((legacyReset c s).ctx c).iv[j] = if c = .session ∧ s.gen = .legacy then 0 else (s.ctx c).iv[j] := by
  split_ifs with hreset
  · obtain ⟨rfl, hg⟩ := hreset
    simp only [legacyReset_session s hg, ctx_setIv_same, Vector.getElem_replicate]
  · rcases legacyReset_cases c s with e | ⟨hc, hg, -⟩
    · rw [e]
    · exact absurd ⟨hc, hg⟩ hreset

/-- `t` is `s` but for the IV of context `c` and BUF, with a command completed (R235). -/
def ChainedFrame (c : Ctx) (s t : State) : Prop :=
  t = { s.setCtx c { s.ctx c with iv := (t.ctx c).iv } with buf := t.buf, err := 0, busy := false, done := true }

theorem chainedFrame_complete (c : Ctx) (iv : Bytes 16) (s : State) (m : Memory) :
    ChainedFrame c s (complete (setIv c iv { s with buf := m })) := by cases c <;> rfl

theorem ChainedFrame.off {c : Ctx} {s t : State} (h : ChainedFrame c s t) : t.off = s.off := by
  rw [h]
  exact setCtx_off s c _

theorem ChainedFrame.gen {c : Ctx} {s t : State} (h : ChainedFrame c s t) : t.gen = s.gen := by
  rw [h]
  exact setCtx_gen s c _

/-! ### CBC1 where it completes (R194) -/

/-- The chaining step of a CBC1 that passes its checks: the block it stores and the chaining value it leaves. -/
def cbc1Step (P : Primitives) (c : Ctx) (d : Dir) (o : CipherOp) (s : State) :
    Bytes (s.ctx c).keyType.blockSize × Bytes (s.ctx c).keyType.blockSize :=
  cbcStep P (s.ctx c).keyType (s.ctx c).key d o (readBlock s s.off.toNat (s.ctx c).keyType.blockSize)
    (chainIv (s.ctx c) (s.ctx c).keyType.blockSize)

/-- The state in which a CBC1 that passes its checks ends. -/
def cbc1Done (P : Primitives) (c : Ctx) (d : Dir) (o : CipherOp) (s : State) : State :=
  complete (setIvFirst c (cbc1Step P c d o s).2 (memWrite s s.off.toNat (cbc1Step P c d o s).1.toList))

theorem cbc1Command_of_checks (P : Primitives) (c : Ctx) (d : Dir) (o : CipherOp) {s : State}
    (hk : (s.ctx c).kvalid = true) (hin : s.off.toNat + (s.ctx c).keyType.blockSize ≤ s.params.bufBytes) :
    cbc1Command P c d o s = cbc1Done P c d o s := by
  rcases cbc1Command_cases P c d o s with ⟨hn, -⟩ | ⟨-, hn, -⟩ | ⟨-, -, r, rfl, e⟩
  · exact absurd hk (by simp [hn])
  · omega
  · exact e

theorem exec_cbc1_of_checks {c : Ctx} (d : Dir) (o : CipherOp) {s : State} (hk : (s.ctx c).kvalid = true)
    (hin : s.off.toNat + (s.ctx c).keyType.blockSize ≤ s.params.bufBytes) :
    exec (.cbc1 c d o) s = .next (cbc1Done Config.primitives c d o s) :=
  congrArg _ (cbc1Command_of_checks Config.primitives c d o hk hin)

theorem readBlock_cbc1Done (P : Primitives) (c : Ctx) (d : Dir) (o : CipherOp) (s : State) :
    readBlock (cbc1Done P c d o s) s.off.toNat (s.ctx c).keyType.blockSize = (cbc1Step P c d o s).1 := by
  rw [cbc1Done, readBlock_complete_setIvFirst, readBlock_memWrite_same]

theorem bufByte_cbc1Done_outside (P : Primitives) (c : Ctx) (d : Dir) (o : CipherOp) (s : State) {x : Nat}
    (h : x < s.off.toNat ∨ s.off.toNat + (s.ctx c).keyType.blockSize ≤ x) :
    bufByte (cbc1Done P c d o s) x = bufByte s x := by
  rw [cbc1Done, bufByte_complete, bufByte_setIvFirst, bufByte_memWrite_block_outside _ _ _ h]

theorem chainIv_cbc1Done (P : Primitives) (c : Ctx) (d : Dir) (o : CipherOp) (s : State) :
    chainIv ((cbc1Done P c d o s).ctx c) (s.ctx c).keyType.blockSize = (cbc1Step P c d o s).2 :=
  chainIv_complete_setIvFirst (s.ctx c).keyType.blockSize_le c _ _

theorem iv_cbc1Done_tail (P : Primitives) (c : Ctx) (d : Dir) (o : CipherOp) (s : State) {j : Nat} (h : j < 16)
    (hj : (s.ctx c).keyType.blockSize ≤ j) : ((cbc1Done P c d o s).ctx c).iv[j] = (s.ctx c).iv[j] :=
  iv_complete_setIvFirst_tail c _ _ hj h

/-- Settles O25: what `cbc1Done` holds in each part of the state. -/
theorem cbc1CompletesInPlace : Obligations.Cbc1CompletesInPlace := fun c d o s hk hin =>
  ⟨cbc1Done Config.primitives c d o s, cbc1Step Config.primitives c d o s, rfl,
    exec_cbc1_of_checks d o hk hin, readBlock_cbc1Done _ c d o s,
    fun _ => bufByte_cbc1Done_outside _ c d o s, chainIv_cbc1Done _ c d o s,
    fun _ => iv_cbc1Done_tail _ c d o s, chainedFrame_complete c _ s _⟩

/-! ### The loop of CBCN as standard CBC (R191, R192, R195) -/

/-- Of the states before and after the loop, the one whose blocks are the chaining values: on Send the blocks put out,
on Receive the blocks taken in (R191, R192). -/
def chainSource : Dir → (input output : State) → State
  | .send, _, output => output
  | .receive, input, _ => input

/-- The chaining value that block `i` of a region at `a` meets: the one the loop starts from, and after the first block
the block before it in the state `src`. -/
def chainValue {b : Nat} (src : State) (a : Nat) (iv : Bytes b) (i : Nat) : Bytes b :=
  if i = 0 then iv else readBlock src (a + (i - 1) * b) b

/-- Seen from the region's second block, the chaining values are those of a loop that starts there. -/
theorem chainValue_succ {b : Nat} {src src' : State} {a : Nat} (iv : Bytes b) {iv' : Bytes b} (i : Nat)
    (hfirst : readBlock src a b = iv') (hrest : ∀ y, a + b ≤ y → readBlock src y b = readBlock src' y b) :
    chainValue src a iv (i + 1) = chainValue src' (a + b) iv' i := by
  cases i with
  | zero => simpa [chainValue] using hfirst
  | succ i =>
    have hnext : a + (i + 1) * b = a + b + i * b := by rw [Nat.succ_mul]; omega
    simp only [chainValue, Nat.succ_ne_zero, if_false, Nat.add_sub_cancel, hnext]
    exact hrest _ (by omega)

/-- The chaining values of a loop from its second step on. -/
theorem chainValue_cbcLoop_succ (P : Primitives) (t : KeyType) (key : Bytes 24) (d : Dir) (o : CipherOp) (a : Nat)
    (iv : Bytes t.blockSize) {s u : State} {r : Bytes t.blockSize × Bytes t.blockSize}
    (hr : cbcStep P t key d o (readBlock s a t.blockSize) iv = r) (hu : readBlock u a t.blockSize = r.1) (i : Nat) :
    chainValue (chainSource d s u) a iv (i + 1) =
      chainValue (chainSource d (memWrite s a r.1.toList) u) (a + t.blockSize) r.2 i := by
  subst hr
  cases d with
  | send => exact chainValue_succ iv i hu fun _ _ => rfl
  | receive => exact chainValue_succ iv i rfl fun y hy => (readBlock_memWrite_outside s a _ (.inr hy)).symm

/-- The loop is standard CBC: each block it leaves is the chaining step on the input block and its chaining value, and
it ends with the chaining value that a further block would meet. -/
theorem cbcLoop_standard (P : Primitives) (t : KeyType) (key : Bytes 24) (d : Dir) (o : CipherOp) (blocks a : Nat)
    (iv : Bytes t.blockSize) (s u : State) (hu : (cbcLoop P t key d o blocks a iv s).1 = u) :
    (∀ i < blocks, readBlock u (a + i * t.blockSize) t.blockSize =
      (cbcStep P t key d o (readBlock s (a + i * t.blockSize) t.blockSize)
        (chainValue (chainSource d s u) a iv i)).1) ∧
      (cbcLoop P t key d o blocks a iv s).2 = chainValue (chainSource d s u) a iv blocks := by
  induction blocks generalizing a iv s with
  | zero => exact ⟨fun i hi => absurd hi (Nat.not_lt_zero i), rfl⟩
  | succ n ih =>
    have hfirst := cbcLoop_first_block P t key d o (n + 1) a iv s (Nat.succ_ne_zero n)
    rw [hu] at hfirst
    rw [cbcLoop] at hu ⊢
    obtain ⟨hblocks, hchain⟩ := ih _ _ _ hu
    have hvalue := chainValue_cbcLoop_succ P t key d o a iv rfl hfirst
    refine ⟨fun i hi => ?_, hchain.trans (hvalue n).symm⟩
    cases i with
    | zero => simpa [chainValue] using hfirst
    | succ i =>
      have hnext : a + (i + 1) * t.blockSize = a + t.blockSize + i * t.blockSize := by rw [Nat.succ_mul]; omega
      rw [hvalue, hnext, hblocks i (by omega), readBlock_memWrite_outside _ _ _ (.inr (by omega))]

/-! ### CBCN where it completes (R195) -/

/-- The state in which a CBCN that passes its checks ends. -/
def cbcnDone (P : Primitives) (c : Ctx) (d : Dir) (o : CipherOp) (s : State) : State :=
  complete (setIvFirst c (cbcnLoop P c d o s).2 (cbcnLoop P c d o s).1)

theorem cbcnDone_frame (P : Primitives) (c : Ctx) (d : Dir) (o : CipherOp) (s : State) :
    ChainedFrame c s (cbcnDone P c d o s) := by
  obtain ⟨iv, m, h⟩ := setIvFirst_cbcnLoop P c d o s
  rw [cbcnDone, h]
  exact chainedFrame_complete c iv s m

/-- The chaining value that block `i` of a CBCN meets. -/
def cbcnValue (P : Primitives) (c : Ctx) (d : Dir) (o : CipherOp) (s : State) (i : Nat) :
    Bytes (s.ctx c).keyType.blockSize :=
  chainValue (chainSource d s (cbcnDone P c d o s)) s.off.toNat (startIv c s) i

theorem cbcnValue_eq_chainValue (P : Primitives) (c : Ctx) (d : Dir) (o : CipherOp) (s : State) (i : Nat) :
    cbcnValue P c d o s i =
      chainValue (chainSource d (legacyReset c s) (cbcnLoop P c d o s).1) s.off.toNat (startIv c s) i := by
  cases d <;> simp only [cbcnValue, chainValue, chainSource, cbcnDone, readBlock_complete_setIvFirst,
    readBlock_legacyReset]

theorem readBlock_cbcnDone (P : Primitives) (c : Ctx) (d : Dir) (o : CipherOp) (s : State) {i : Nat}
    (hi : i < s.len.toNat / (s.ctx c).keyType.blockSize) :
    readBlock (cbcnDone P c d o s) (s.off.toNat + i * (s.ctx c).keyType.blockSize) (s.ctx c).keyType.blockSize =
      (cbcStep P (s.ctx c).keyType (s.ctx c).key d o
        (readBlock s (s.off.toNat + i * (s.ctx c).keyType.blockSize) (s.ctx c).keyType.blockSize)
        (cbcnValue P c d o s i)).1 := by
  have h := (cbcLoop_standard P (s.ctx c).keyType (s.ctx c).key d o _ s.off.toNat (startIv c s) (legacyReset c s) _
    rfl).1 i hi
  rw [readBlock_legacyReset] at h
  rw [cbcnDone, readBlock_complete_setIvFirst, cbcnValue_eq_chainValue]
  exact h

theorem bufByte_cbcnDone_outside (P : Primitives) (c : Ctx) (d : Dir) (o : CipherOp) (s : State) {x : Nat}
    (h : x < s.off.toNat ∨ s.off.toNat + s.len.toNat ≤ x) : bufByte (cbcnDone P c d o s) x = bufByte s x := by
  have hsize := Nat.div_mul_le_self s.len.toNat (s.ctx c).keyType.blockSize
  rw [cbcnDone, bufByte_complete, bufByte_setIvFirst, cbcnLoop, cbcLoop_outside _ _ _ _ _ _ _ _ _ _ (by omega),
    bufByte_legacyReset]

theorem chainIv_cbcnDone (P : Primitives) (c : Ctx) (d : Dir) (o : CipherOp) (s : State) :
    chainIv ((cbcnDone P c d o s).ctx c) (s.ctx c).keyType.blockSize =
      cbcnValue P c d o s (s.len.toNat / (s.ctx c).keyType.blockSize) := by
  rw [cbcnDone, chainIv_complete_setIvFirst (s.ctx c).keyType.blockSize_le, cbcnValue_eq_chainValue]
  exact (cbcLoop_standard P (s.ctx c).keyType (s.ctx c).key d o _ s.off.toNat (startIv c s) (legacyReset c s) _ rfl).2

theorem iv_cbcnDone_tail (P : Primitives) (c : Ctx) (d : Dir) (o : CipherOp) (s : State) {j : Nat} (h : j < 16)
    (hj : (s.ctx c).keyType.blockSize ≤ j) :
    ((cbcnDone P c d o s).ctx c).iv[j] = if c = .session ∧ s.gen = .legacy then 0 else (s.ctx c).iv[j] := by
  obtain ⟨m, hm⟩ := cbcLoop_writes_buf_only P (s.ctx c).keyType (s.ctx c).key d o
    (s.len.toNat / (s.ctx c).keyType.blockSize) s.off.toNat (startIv c s) (legacyReset c s)
  rw [cbcnDone, iv_complete_setIvFirst_tail c _ _ hj h, ← iv_legacyReset c s h]
  simp only [cbcnLoop, hm]
  rfl

theorem exec_cbcn_of_checks {c : Ctx} (d : Dir) (o : CipherOp) {s : State} (hk : (s.ctx c).kvalid = true)
    (hmod : s.len.toNat % (s.ctx c).keyType.blockSize = 0) (hin : s.off.toNat + s.len.toNat ≤ s.params.bufBytes) :
    exec (.cbcn c d o) s = .next (cbcnDone Config.primitives c d o s) :=
  congrArg _ (cbcnCommand_of_checks Config.primitives c d o hk hmod hin)

/-- Settles O26: what `cbcnDone` holds in each part of the state, with the chaining step written out. -/
theorem cbcnCompletesAsStandardCbc : Obligations.CbcnCompletesAsStandardCbc := by
  rintro c d o s b n a rfl rfl rfl hk hmod hin
  refine ⟨cbcnDone Config.primitives c d o s, exec_cbcn_of_checks d o hk hmod hin, fun i hi => ?_,
    fun _ => bufByte_cbcnDone_outside _ c d o s, ?_, fun _ h hj => iv_cbcnDone_tail _ c d o s h hj,
    cbcnDone_frame _ c d o s⟩
  · rw [readBlock_cbcnDone _ c d o s hi]
    cases d <;> rfl
  · have hsize := Nat.div_mul_cancel (Nat.dvd_of_mod_eq_zero hmod)
    rw [chainIv_cbcnDone, cbcnValue, chainValue]
    rcases Nat.eq_zero_or_pos (s.len.toNat / (s.ctx c).keyType.blockSize) with h0 | hpos
    · have hn : s.len.toNat = 0 := by rw [← hsize, h0, Nat.zero_mul]
      rw [if_pos h0, if_pos hn]
    · have hn : s.len.toNat ≠ 0 := fun h => by simp [h] at hpos
      have hlast : s.off.toNat + (s.len.toNat / (s.ctx c).keyType.blockSize - 1) * (s.ctx c).keyType.blockSize =
          s.off.toNat + s.len.toNat - (s.ctx c).keyType.blockSize := by
        rw [Nat.sub_mul, hsize, Nat.one_mul]
        exact (Nat.add_sub_assoc (Nat.le_of_dvd (Nat.pos_of_ne_zero hn) (Nat.dvd_of_mod_eq_zero hmod)) _).symm
      rw [if_neg hpos.ne', if_neg hn, hlast]
      cases d <;> rfl

end Sys2Proof.Machine
end

section
/-! PROOFS of the statements of 42_block_chaining.md, second part: CBCN with no block (R197) and as repeated CBC1
(R195). -/

namespace Sys2Proof.Machine

/-! ### What the loop of CBCN reads -/

/-- The loop reads and writes nothing but BUF: in another state with the same BUF it does the same. -/
theorem cbcLoop_eq_of_buf (P : Primitives) (t : KeyType) (key : Bytes 24) (d : Dir) (o : CipherOp) (blocks a : Nat)
    (iv : Bytes t.blockSize) {s u : State} (hbuf : u.buf = s.buf) (hepoch : u.epoch = s.epoch) :
    cbcLoop P t key d o blocks a iv u =
      ({ u with buf := (cbcLoop P t key d o blocks a iv s).1.buf }, (cbcLoop P t key d o blocks a iv s).2) := by
  induction blocks generalizing a iv s u with
  | zero => simp only [cbcLoop, ← hbuf]
  | succ n ih =>
    have hread : readBlock u a t.blockSize = readBlock s a t.blockSize :=
      readBlock_congr fun _ _ => by rw [bufByte, bufByte, hbuf, hepoch]
    have hwrite (l : List Byte) : (memWrite u a l).buf = (memWrite s a l).buf := by
      rw [memWrite_buf, memWrite_buf, hbuf]
    rw [cbcLoop, cbcLoop, hread]
    exact ih _ _ (hwrite _) hepoch

theorem cbcLoop_fst (P : Primitives) (t : KeyType) (key : Bytes 24) (d : Dir) (o : CipherOp) (blocks a : Nat)
    (iv : Bytes t.blockSize) (s : State) :
    (cbcLoop P t key d o blocks a iv s).1 = { s with buf := (cbcLoop P t key d o blocks a iv s).1.buf } :=
  congrArg Prod.fst (cbcLoop_eq_of_buf P t key d o blocks a iv (s := s) rfl rfl)

/-! ### CBCN with no block (R197) -/

theorem cbcnDone_of_len_zero (P : Primitives) (c : Ctx) (d : Dir) (o : CipherOp) {s : State} (h : s.len = 0) :
    cbcnDone P c d o s = complete (legacyReset c s) := by
  have hloop : cbcnLoop P c d o s = (legacyReset c s, startIv c s) := by
    have hblocks : s.len.toNat / (s.ctx c).keyType.blockSize = 0 := by rw [h]; exact Nat.zero_div _
    rw [cbcnLoop, hblocks, cbcLoop]
  rw [cbcnDone, hloop, ← chainIv_legacyReset, setIvFirst_chainIv]

/-- Settles O28: with no block the completed state is that of the legacy reset. -/
theorem cbcnOfNothingOnlyResetsTheIv : Obligations.CbcnOfNothingOnlyResetsTheIv := by
  intro c d o s hk hlen hin
  have hexec : exec (.cbcn c d o) s = .next (complete (legacyReset c s)) := by
    rw [exec_cbcn_of_checks d o hk (by rw [hlen]; exact Nat.zero_mod _) (by rwa [hlen]),
      cbcnDone_of_len_zero _ c d o hlen]
  refine ⟨fun hkeep => hexec.trans ?_, fun hc hg => hexec.trans ?_⟩
  · rcases hkeep with rfl | hg
    · rfl
    · rw [legacyReset_new c s hg]
      rfl
  · rw [hc, legacyReset_session s hg]
    rfl

/-! ### CBCN as repeated CBC1 (R195) -/

/-- `s` with another OFF, as software moves it on between two commands. -/
def State.withOff (s : State) (x : Half) : State := { s with off := x }

theorem cbc1Chain_succ (P : Primitives) (c : Ctx) (d : Dir) (o : CipherOp) (n a : Nat) (s : State) :
    cbc1Chain P c d o (n + 1) a s = cbc1Chain P c d o n (a + (s.ctx c).keyType.blockSize)
      (cbc1Command P c d o (s.withOff (BitVec.ofNat 16 a))) := rfl

/-- A CBC1 that passes its checks, with its offset, its TYPE and its KEY named. -/
theorem cbc1Command_at (P : Primitives) (c : Ctx) (d : Dir) (o : CipherOp) {s : State} {a : Nat} {t : KeyType}
    {key : Bytes 24} {r : Bytes t.blockSize × Bytes t.blockSize} (hoff : s.off.toNat = a)
    (ht : (s.ctx c).keyType = t) (hkey : (s.ctx c).key = key) (hk : (s.ctx c).kvalid = true)
    (hin : a + t.blockSize ≤ s.params.bufBytes)
    (hr : cbcStep P t key d o (readBlock s a t.blockSize) (chainIv (s.ctx c) t.blockSize) = r) :
    cbc1Command P c d o s = complete (setIvFirst c r.2 (memWrite s a r.1.toList)) := by
  subst hoff ht hkey hr
  exact cbc1Command_of_checks P c d o hk hin

theorem chainIv_setIvFirst {n : Nat} (hn : n ≤ 16) (c : Ctx) (v : Bytes n) (s : State) :
    chainIv ((setIvFirst c v s).ctx c) n = v := chainIv_complete_setIvFirst hn c v s

theorem setIvFirst_buf_update {n : Nat} (c : Ctx) (v : Bytes n) (s : State) (m : Memory) :
    { setIvFirst c v s with buf := m } = setIvFirst c v { s with buf := m } := by cases c <;> rfl

/-- The loop overwrites what the command before it left in the IV, in OFF and in the flags. -/
theorem complete_cbcLoop_again (P : Primitives) (t : KeyType) (key : Bytes 24) (d : Dir) (o : CipherOp) (blocks a : Nat)
    (iv : Bytes t.blockSize) (c : Ctx) (v : Bytes t.blockSize) (x y : Half) (s : State)
    {r q : State × Bytes t.blockSize} (hr : cbcLoop P t key d o blocks a iv s = r)
    (hq : cbcLoop P t key d o blocks a iv (setIvFirst c v ((complete s).withOff y)) = q) :
    (complete (setIvFirst c q.2 q.1)).withOff x = (complete (setIvFirst c r.2 r.1)).withOff x := by
  have hsame := cbcLoop_eq_of_buf P t key d o blocks a iv (s := s) (u := setIvFirst c v ((complete s).withOff y))
    (setIvFirst_buf c v _) (setIvFirst_epoch c v _)
  subst hr hq
  rw [hsame, setIvFirst_buf_update, setIvFirst_setIvFirst, cbcLoop_fst P t key d o blocks a iv s]
  cases c <;> rfl

/-- `k` and `l` differ in their IV at most. -/
def KeyContext.AgreeButIv (k l : KeyContext) : Prop := { k with iv := l.iv } = l

theorem KeyContext.AgreeButIv.keyType {k l : KeyContext} (h : k.AgreeButIv l) : k.keyType = l.keyType := by rw [← h]
theorem KeyContext.AgreeButIv.kvalid {k l : KeyContext} (h : k.AgreeButIv l) : k.kvalid = l.kvalid := by rw [← h]
theorem KeyContext.AgreeButIv.key {k l : KeyContext} (h : k.AgreeButIv l) : k.key = l.key := by rw [← h]

theorem agreeButIv_setIvFirst {n : Nat} (c : Ctx) (v : Bytes n) {s : State} {k : KeyContext}
    (h : (s.ctx c).AgreeButIv k) : ((setIvFirst c v s).ctx c).AgreeButIv k := by
  rw [ctx_setIvFirst_same]
  exact h

theorem agreeButIv_legacyReset (c : Ctx) (s : State) : ((legacyReset c s).ctx c).AgreeButIv (s.ctx c) := by
  rcases legacyReset_cases c s with h | ⟨rfl, -, h⟩ <;> rw [h]
  · rfl
  · rw [ctx_setIv_same]
    rfl

/-- CBC1 commands one after the other are the loop of CBCN: each starts from the chaining value that the one before it
left in the IV. `k` is the context they use, but for its IV. OFF, which software moves on between them, is set to `x` on
both sides, and a legal BUF keeps it in 16 bits. -/
theorem cbc1Chain_eq_cbcLoop (P : Primitives) (c : Ctx) (d : Dir) (o : CipherOp) (x : Half) {k : KeyContext}
    {p : Params} (hk : k.kvalid = true) (hsize : p.bufBytes < 2 ^ 16) (blocks a : Nat) {u : State}
    {r : State × Bytes k.keyType.blockSize} (hctx : (u.ctx c).AgreeButIv k) (hp : u.params = p)
    (hin : a + blocks * k.keyType.blockSize ≤ p.bufBytes)
    (hr : cbcLoop P k.keyType k.key d o blocks a (chainIv (u.ctx c) k.keyType.blockSize) u = r) :
    (cbc1Chain P c d o blocks a (complete u)).withOff x = (complete (setIvFirst c r.2 r.1)).withOff x := by
  induction blocks generalizing a u r with
  | zero =>
    subst hr
    rw [cbc1Chain, cbcLoop, setIvFirst_chainIv]
  | succ n ih =>
    have hb : (n + 1) * k.keyType.blockSize = k.keyType.blockSize + n * k.keyType.blockSize := by
      rw [Nat.succ_mul, Nat.add_comm]
    have hoff : (BitVec.ofNat 16 a).toNat = a := by rw [BitVec.toNat_ofNat, Nat.mod_eq_of_lt (by omega)]
    rw [cbcLoop] at hr
    generalize hstep : cbcStep P k.keyType k.key d o (readBlock u a k.keyType.blockSize)
      (chainIv (u.ctx c) k.keyType.blockSize) = q at hr
    have hfirst : cbc1Command P c d o ((complete u).withOff (BitVec.ofNat 16 a)) =
        complete (setIvFirst c q.2 ((complete (memWrite u a q.1.toList)).withOff (BitVec.ofNat 16 a))) :=
      cbc1Command_at P c d o hoff hctx.keyType hctx.key (hctx.kvalid.trans hk)
        (show a + k.keyType.blockSize ≤ u.params.bufBytes by rw [hp]; omega) hstep
    rw [cbc1Chain_succ, ctx_complete, hctx.keyType, hfirst]
    have hagree := agreeButIv_setIvFirst c q.2 (s := (complete (memWrite u a q.1.toList)).withOff (BitVec.ofNat 16 a))
      hctx
    rw [ih _ hagree ((setIvFirst_params c q.2 _).trans hp) (by omega) rfl, chainIv_setIvFirst k.keyType.blockSize_le]
    exact complete_cbcLoop_again P _ _ d o n _ _ c _ x _ _ hr rfl

/-- Settles O27: CBCN is the loop, and the loop is the chain of CBC1 commands after the legacy reset. -/
theorem cbcnEqualsRepeatedCbc1 : Obligations.CbcnEqualsRepeatedCbc1 := by
  intro P c d o s hp hk hmod hin
  have hsize := Params.bufBytes_le_of_wellFormed hp
  have hdiv := Nat.div_mul_cancel (Nat.dvd_of_mod_eq_zero hmod)
  have hchain := cbc1Chain_eq_cbcLoop P c d o s.off (p := s.params) hk (by omega)
    (s.len.toNat / (s.ctx c).keyType.blockSize) s.off.toNat (agreeButIv_legacyReset c s) (legacyReset_params c s)
    (by omega) rfl
  rw [chainIv_legacyReset] at hchain
  calc cbcnCommand P c d o s
    _ = cbcnDone P c d o s := cbcnCommand_of_checks P c d o hk hmod hin
    _ = (cbcnDone P c d o s).withOff s.off := by rw [← (cbcnDone_frame P c d o s).off]; rfl
    _ = _ := hchain.symm

end Sys2Proof.Machine
end

section
/-! PROOFS of the statements of 42_block_chaining.md, third part: the legacy reset (R196), and what GEN decides. -/

namespace Sys2Proof.Machine

/-! ### What depends on GEN (R196) -/

/-- `s` with CTRL.GEN set to `g`. -/
def State.withGen (s : State) (g : Generation) : State := { s with gen := g }

@[simp] theorem ctx_withGen (s : State) (g : Generation) (c : Ctx) : (s.withGen g).ctx c = s.ctx c := by cases c <;> rfl

theorem withGen_of_eq {s : State} {g : Generation} (h : s.gen = g) : s.withGen g = s := h ▸ rfl

theorem withGen_withGen (s : State) (g h : Generation) : (s.withGen g).withGen h = s.withGen h := rfl

theorem complete_withGen (s : State) (g : Generation) : complete (s.withGen g) = (complete s).withGen g := rfl

theorem setIvFirst_withGen {n : Nat} (c : Ctx) (v : Bytes n) (s : State) (g : Generation) :
    setIvFirst c v (s.withGen g) = (setIvFirst c v s).withGen g := by cases c <;> rfl

theorem memWrite_withGen (s : State) (g : Generation) (a : Nat) (l : List Byte) :
    memWrite (s.withGen g) a l = (memWrite s a l).withGen g := rfl

theorem readBlock_withGen (s : State) (g : Generation) (a b : Nat) :
    readBlock (s.withGen g) a b = readBlock s a b := rfl

@[simp] theorem offset_withGen (s : State) (g : Generation) : offset (s.withGen g) = offset s := rfl
@[simp] theorem count_withGen (s : State) (g : Generation) : count (s.withGen g) = count s := rfl
@[simp] theorem inBuf_withGen (s : State) (g : Generation) (a n : Nat) : inBuf (s.withGen g) a n = inBuf s a n := rfl

theorem cbcLoop_withGen (P : Primitives) (t : KeyType) (key : Bytes 24) (d : Dir) (o : CipherOp) (blocks a : Nat)
    (iv : Bytes t.blockSize) (s : State) (g : Generation) :
    cbcLoop P t key d o blocks a iv (s.withGen g) =
      ((cbcLoop P t key d o blocks a iv s).1.withGen g, (cbcLoop P t key d o blocks a iv s).2) := by
  rw [cbcLoop_eq_of_buf P t key d o blocks a iv (s := s) (u := s.withGen g) rfl rfl]
  obtain ⟨m, hm⟩ := cbcLoop_writes_buf_only P t key d o blocks a iv s
  rw [hm]
  rfl

/-- CBC1 does not read GEN. -/
theorem cbc1Command_withGen (P : Primitives) (c : Ctx) (d : Dir) (o : CipherOp) (s : State) (g : Generation) :
    cbc1Command P c d o (s.withGen g) = (cbc1Command P c d o s).withGen g := by
  rw [cbc1Command, cbc1Command, ctx_withGen]
  simp only [offset_withGen, inBuf_withGen, readBlock_withGen, memWrite_withGen, setIvFirst_withGen]
  split_ifs <;> rfl

/-- CBCN on context 0 does not read GEN. -/
theorem cbcnCommand_explicit_withGen (P : Primitives) (d : Dir) (o : CipherOp) (s : State) (g : Generation) :
    cbcnCommand P .explicit d o (s.withGen g) = (cbcnCommand P .explicit d o s).withGen g := by
  rw [cbcnCommand, cbcnCommand, ctx_withGen]
  simp only [offset_withGen, count_withGen, inBuf_withGen, legacyReset_explicit, ctx_withGen, cbcLoop_withGen,
    setIvFirst_withGen]
  split_ifs <;> rfl

theorem not_reset_of_carried {c : Ctx} {s : State} (h : c = .explicit ∨ s.gen = .new) :
    ¬(c = .session ∧ s.gen = .legacy) := by
  rintro ⟨rfl, hg⟩
  simp [hg] at h

theorem legacyReset_of_not {c : Ctx} {s : State} (h : ¬(c = .session ∧ s.gen = .legacy)) : legacyReset c s = s :=
  (legacyReset_cases c s).resolve_right fun ⟨hc, hg, _⟩ => h ⟨hc, hg⟩

/-- Where R196 resets nothing, CBCN starts from the context's current IV. -/
theorem startIv_of_carried {c : Ctx} {s : State} (h : c = .explicit ∨ s.gen = .new) :
    startIv c s = chainIv (s.ctx c) (s.ctx c).keyType.blockSize := by
  rw [startIv, if_neg (not_reset_of_carried h)]

/-- Under the legacy reset the loop of CBCN runs as with GEN = New from an IV of zero bytes. -/
theorem cbcnLoop_session_legacy (P : Primitives) (d : Dir) (o : CipherOp) {s : State} (hg : s.gen = .legacy) :
    cbcnLoop P .session d o ((setIv .session (Bytes.zero 16) s).withGen .new) =
      ((cbcnLoop P .session d o s).1.withGen .new, (cbcnLoop P .session d o s).2) := by
  have hstart : startIv .session ((setIv .session (Bytes.zero 16) s).withGen .new) = startIv .session s := by
    rw [startIv_of_carried (.inr rfl), ← chainIv_legacyReset, legacyReset_session s hg]
    rfl
  rw [cbcnLoop, cbcnLoop, hstart, legacyReset_session s hg]
  exact cbcLoop_withGen P _ _ d o _ _ _ _ _

/-- Under the legacy reset a CBCN ends as with GEN = New from an IV of zero bytes. -/
theorem cbcnDone_session_legacy (P : Primitives) (d : Dir) (o : CipherOp) {s : State} (hg : s.gen = .legacy) :
    cbcnDone P .session d o s =
      (cbcnDone P .session d o ((setIv .session (Bytes.zero 16) s).withGen .new)).withGen .legacy := by
  have hgen : (cbcnDone P .session d o s).gen = .legacy := (cbcnDone_frame P .session d o s).gen.trans hg
  have hnew : cbcnDone P .session d o ((setIv .session (Bytes.zero 16) s).withGen .new) =
      (cbcnDone P .session d o s).withGen .new := by
    rw [cbcnDone, cbcnLoop_session_legacy P d o hg, setIvFirst_withGen, complete_withGen]
    rfl
  rw [hnew, withGen_withGen, withGen_of_eq hgen]

/-- Where the IV is carried, the first block of a CBCN meets the context's current IV. -/
theorem readBlock_cbcnDone_first (P : Primitives) {c : Ctx} (d : Dir) (o : CipherOp) {s : State}
    (h : c = .explicit ∨ s.gen = .new) (hmod : s.len.toNat % (s.ctx c).keyType.blockSize = 0) (hlen : s.len ≠ 0) :
    readBlock (cbcnDone P c d o s) s.off.toNat (s.ctx c).keyType.blockSize =
      (cbcStep P (s.ctx c).keyType (s.ctx c).key d o (readBlock s s.off.toNat (s.ctx c).keyType.blockSize)
        (chainIv (s.ctx c) (s.ctx c).keyType.blockSize)).1 := by
  have hpos : 0 < s.len.toNat := Nat.pos_of_ne_zero fun h0 => hlen (BitVec.eq_of_toNat_eq h0)
  have hblocks : 0 < s.len.toNat / (s.ctx c).keyType.blockSize :=
    Nat.div_pos (Nat.le_of_dvd hpos (Nat.dvd_of_mod_eq_zero hmod)) (s.ctx c).keyType.blockSize_pos
  have hfirst := readBlock_cbcnDone P c d o s hblocks
  rw [cbcnValue, chainValue, if_pos rfl, startIv_of_carried h, Nat.zero_mul, Nat.add_zero] at hfirst
  exact hfirst

theorem cbcnDone_iv_of_carried (P : Primitives) {c : Ctx} (d : Dir) (o : CipherOp) {s : State}
    (h : c = .explicit ∨ s.gen = .new) {j : Nat} (hj : j < 16) (hb : (s.ctx c).keyType.blockSize ≤ j) :
    ((cbcnDone P c d o s).ctx c).iv[j] = (s.ctx c).iv[j] := by
  rw [iv_cbcnDone_tail P c d o s hj hb, if_neg (not_reset_of_carried h)]

/-- A CBCN whose checks do not all pass leaves the contexts as they were. -/
theorem ctx_cbcnCommand_of_failed (P : Primitives) (c c' : Ctx) (d : Dir) (o : CipherOp) {s : State}
    (h : (s.ctx c).kvalid = false ∨ s.len.toNat % (s.ctx c).keyType.blockSize ≠ 0 ∨
      s.params.bufBytes < s.off.toNat + s.len.toNat) :
    (cbcnCommand P c d o s).ctx c' = s.ctx c' := by
  rcases cbcnCommand_cases P c d o s with ⟨-, e⟩ | ⟨-, -, e⟩ | ⟨-, -, -, e⟩ | ⟨hk, hmod, hin, -⟩
  · rw [e, ctx_raiseError]
  · rw [e, ctx_raiseError]
  · rw [e, ctx_raiseError]
  · rcases h with hn | hn | hn
    · exact absurd hk (by simp [hn])
    · exact absurd hmod hn
    · omega

/-- Settles O29, clause by clause: the reset, a failed check, the carried IV of CBCN and of CBC1, and GEN unread. -/
theorem legacyResetIsCbcnOnTheSessionOnly : Obligations.LegacyResetIsCbcnOnTheSessionOnly := by
  intro d o s
  refine ⟨fun hg hk hmod hin => ?_, fun _ hfail => ?_, fun c hcarry hk hmod hin => ?_, fun c hk hin => ?_, fun g => ?_,
    fun c g => ?_⟩
  · refine ⟨_, exec_cbcn_of_checks (c := .session) d o hk hmod hin, ?_⟩
    rw [exec_cbcn_of_checks (c := .session) d o hk hmod hin, cbcnDone_session_legacy _ d o hg]
    rfl
  · exact ⟨_, rfl, ctx_cbcnCommand_of_failed Config.primitives .session .session d o hfail⟩
  · refine ⟨_, exec_cbcn_of_checks d o hk hmod hin, fun hlen => ?_,
      readBlock_cbcnDone_first _ d o hcarry hmod, fun _ => cbcnDone_iv_of_carried _ d o hcarry⟩
    rw [cbcnDone_of_len_zero _ c d o hlen, legacyReset_of_not (not_reset_of_carried hcarry), ctx_complete]
  · exact ⟨_, _, exec_cbc1_of_checks d o hk hin, rfl, readBlock_cbc1Done _ c d o s,
      chainIv_cbc1Done _ c d o s, fun _ => iv_cbc1Done_tail _ c d o s⟩
  · exact ⟨_, rfl, congrArg _ (cbcnCommand_explicit_withGen _ d o s g)⟩
  · exact ⟨_, rfl, congrArg _ (cbc1Command_withGen _ c d o s g)⟩

end Sys2Proof.Machine
end

section
/-! PROOFS of the statements of 42_block_chaining.md, fourth part: the IV bytes that a command uses (R193). Two states
that differ in the IV bytes past the block size alone are run side by side. -/

namespace Sys2Proof.Machine

/-! ### States apart in the tail of an IV -/

theorem cbcLoop_setIv (P : Primitives) (t : KeyType) (key : Bytes 24) (d : Dir) (o : CipherOp) (blocks a : Nat)
    (iv : Bytes t.blockSize) (c : Ctx) (v : Bytes 16) (s : State) :
    cbcLoop P t key d o blocks a iv (setIv c v s) =
      (setIv c v (cbcLoop P t key d o blocks a iv s).1, (cbcLoop P t key d o blocks a iv s).2) := by
  rw [cbcLoop_eq_of_buf P t key d o blocks a iv (setIv_buf c v s) (setIv_epoch c v s), setIv_buf_update, ← cbcLoop_fst]

/-- `t` is `s` but for bytes of the IV of context `c` from byte `n` on. -/
def ApartFromIvTail (n : Nat) (c : Ctx) (s t : State) : Prop :=
  ∃ v : Bytes 16, (∀ (j : Nat) (h : j < 16), j < n → v[j] = (s.ctx c).iv[j]) ∧ t = setIv c v s

theorem readBlock_setIv (c : Ctx) (v : Bytes 16) (s : State) (a b : Nat) :
    readBlock (setIv c v s) a b = readBlock s a b := readBlock_congr fun _ _ => bufByte_setIv c v s _

@[simp] theorem offset_setIv (c : Ctx) (v : Bytes 16) (s : State) : offset (setIv c v s) = offset s := by
  rw [offset, setIv_off, offset]

@[simp] theorem count_setIv (c : Ctx) (v : Bytes 16) (s : State) : count (setIv c v s) = count s := by
  rw [count, setIv_len, count]

@[simp] theorem inBuf_setIv (c : Ctx) (v : Bytes 16) (s : State) (a n : Nat) :
    inBuf (setIv c v s) a n = inBuf s a n := by rw [inBuf, setIv_params, inBuf]

section
variable {n : Nat} {c : Ctx} {s t : State}

theorem ApartFromIvTail.endCommand (h : ApartFromIvTail n c s t) (e : ErrCode) :
    ApartFromIvTail n c (endCommand e s) (endCommand e t) := by
  obtain ⟨v, hv, rfl⟩ := h
  exact ⟨v, hv, by cases c <;> rfl⟩

theorem ApartFromIvTail.complete (h : ApartFromIvTail n c s t) : ApartFromIvTail n c (complete s) (complete t) :=
  h.endCommand .none

theorem ApartFromIvTail.raiseError (h : ApartFromIvTail n c s t) (e : ErrCode) :
    ApartFromIvTail n c (raiseError e s) (raiseError e t) := h.endCommand e

theorem ApartFromIvTail.memWrite (h : ApartFromIvTail n c s t) (a : Nat) (l : List Byte) :
    ApartFromIvTail n c (memWrite s a l) (memWrite t a l) := by
  obtain ⟨v, hv, rfl⟩ := h
  exact ⟨v, hv, by cases c <;> rfl⟩

theorem ApartFromIvTail.setSubkeys (h : ApartFromIvTail n c s t) (a b : Bytes 16) :
    ApartFromIvTail n c (setSubkeys c a b s) (setSubkeys c a b t) := by
  obtain ⟨v, hv, rfl⟩ := h
  exact ⟨v, by simpa only [ctx_setSubkeys_same] using hv, by cases c <;> rfl⟩

/-- A chaining value written to both IVs leaves them equal where it stands. -/
theorem ApartFromIvTail.setIvFirst (h : ApartFromIvTail n c s t) (x : Bytes n) :
    ApartFromIvTail n c (setIvFirst c x s) (setIvFirst c x t) := by
  obtain ⟨v, -, rfl⟩ := h
  refine ⟨replaceFirst x v, fun j hj hn => ?_, ?_⟩
  · simp only [ctx_setIvFirst_same, replaceFirst_getElem _ _ _ hj, if_pos hn]
  · simp only [Machine.setIvFirst, ctx_setIv_same, setIv_setIv]

theorem ApartFromIvTail.legacyReset (h : ApartFromIvTail n c s t) :
    ApartFromIvTail n c (legacyReset c s) (legacyReset c t) := by
  obtain ⟨v, hv, rfl⟩ := h
  by_cases hreset : c = .session ∧ s.gen = .legacy
  · obtain ⟨rfl, hg⟩ := hreset
    rw [legacyReset_session s hg, legacyReset_session _ ((setIv_gen _ v s).trans hg)]
    exact ⟨Bytes.zero 16, fun _ _ _ => by rw [ctx_setIv_same], by rw [setIv_setIv, setIv_setIv]⟩
  · rw [legacyReset_of_not hreset, legacyReset_of_not (by rwa [setIv_gen])]
    exact ⟨v, hv, rfl⟩

/-- The loop reads no IV: the chaining value it starts from is an argument. -/
theorem ApartFromIvTail.cbcLoop (h : ApartFromIvTail n c s t) (P : Primitives) (ty : KeyType) (key : Bytes 24) (d : Dir)
    (o : CipherOp) (blocks a : Nat) (iv : Bytes ty.blockSize) :
    ApartFromIvTail n c (Machine.cbcLoop P ty key d o blocks a iv s).1 (Machine.cbcLoop P ty key d o blocks a iv t).1 ∧
      (Machine.cbcLoop P ty key d o blocks a iv t).2 = (Machine.cbcLoop P ty key d o blocks a iv s).2 := by
  obtain ⟨v, hv, rfl⟩ := h
  obtain ⟨m, hm⟩ := cbcLoop_writes_buf_only P ty key d o blocks a iv s
  rw [cbcLoop_setIv]
  exact ⟨⟨v, by rw [hm]; exact hv, rfl⟩, rfl⟩

theorem ApartFromIvTail.chainIv_eq (h : ApartFromIvTail n c s t) (hn : n ≤ 16) :
    chainIv (t.ctx c) n = chainIv (s.ctx c) n := by
  obtain ⟨v, hv, rfl⟩ := h
  refine Vector.ext fun j hj => ?_
  have h16 : j < 16 := by omega
  rw [ctx_setIv_same, chainIv_getElem _ _ _ hj h16, chainIv_getElem _ _ _ hj h16, hv j h16 hj]

/-! ### Commands in such states -/

theorem ApartFromIvTail.cbc1Command (h : ApartFromIvTail (s.ctx c).keyType.blockSize c s t) (P : Primitives) (d : Dir)
    (o : CipherOp) :
    ApartFromIvTail (s.ctx c).keyType.blockSize c (cbc1Command P c d o s) (cbc1Command P c d o t) := by
  have hchain := h.chainIv_eq (s.ctx c).keyType.blockSize_le
  have hapart := h
  obtain ⟨v, -, rfl⟩ := h
  rw [ctx_setIv_same] at hchain
  rw [Machine.cbc1Command, Machine.cbc1Command, ctx_setIv_same]
  simp only [offset_setIv, inBuf_setIv, readBlock_setIv, hchain]
  split_ifs
  · exact ((hapart.memWrite _ _).setIvFirst _).complete
  · exact hapart.raiseError .bounds
  · exact hapart.raiseError .nokey

theorem ApartFromIvTail.cbcnCommand (h : ApartFromIvTail (s.ctx c).keyType.blockSize c s t) (P : Primitives) (d : Dir)
    (o : CipherOp) :
    ApartFromIvTail (s.ctx c).keyType.blockSize c (cbcnCommand P c d o s) (cbcnCommand P c d o t) := by
  have hchain := h.legacyReset.chainIv_eq (s.ctx c).keyType.blockSize_le
  obtain ⟨hloop, hiv⟩ := h.legacyReset.cbcLoop P (s.ctx c).keyType (s.ctx c).key d o
    (count s / (s.ctx c).keyType.blockSize) (offset s)
    (chainIv ((Machine.legacyReset c s).ctx c) (s.ctx c).keyType.blockSize)
  have hapart := h
  obtain ⟨v, -, rfl⟩ := h
  rw [Machine.cbcnCommand, Machine.cbcnCommand, ctx_setIv_same]
  simp only [offset_setIv, count_setIv, inBuf_setIv, hchain, hiv]
  split_ifs
  · exact (hloop.setIvFirst _).complete
  · exact hapart.raiseError .bounds
  · exact hapart.raiseError .length
  · exact hapart.raiseError .nokey

theorem ApartFromIvTail.deriveCommand (h : ApartFromIvTail n c s t) (P : Primitives) :
    ApartFromIvTail n c (deriveCommand P c s) (deriveCommand P c t) := by
  have hapart := h
  obtain ⟨v, -, rfl⟩ := h
  rw [Machine.deriveCommand, Machine.deriveCommand, ctx_setIv_same]
  split_ifs
  · exact (hapart.setSubkeys _ _).complete
  · exact hapart.raiseError .nokey

/-- A command does not read the IV bytes past the block size, and they reach nothing but themselves. -/
theorem ApartFromIvTail.exec {i : Instr} (h : ApartFromIvTail (s.ctx c).keyType.blockSize c s t)
    (hi : Instr.usesContext i = some c) :
    ∃ s' t', exec i s = .next s' ∧ exec i t = .next t' ∧ ApartFromIvTail (s.ctx c).keyType.blockSize c s' t' := by
  cases i with
  | crc16 => cases hi
  | crc16a => cases hi
  | crc32 => cases hi
  | crc32a => cases hi
  | cbc1 c d o => cases hi; exact ⟨_, _, rfl, rfl, h.cbc1Command _ d o⟩
  | cbcn c d o => cases hi; exact ⟨_, _, rfl, rfl, h.cbcnCommand _ d o⟩
  | derive c => cases hi; exact ⟨_, _, rfl, rfl, h.deriveCommand _⟩

end

/-! ### What a command does to the tail of its IV -/

/-- The command `i`, run from `s` to `t`, is a successful CBCN that takes the legacy reset (R196). -/
def TookLegacyReset (i : Instr) (c : Ctx) (s t : State) : Prop :=
  (∃ d o, i = .cbcn c d o) ∧ c = .session ∧ s.gen = .legacy ∧ t.err = 0

theorem iv_cbc1Command_tail (P : Primitives) (c : Ctx) (d : Dir) (o : CipherOp) (s : State) {j : Nat} (h : j < 16)
    (hb : (s.ctx c).keyType.blockSize ≤ j) : ((cbc1Command P c d o s).ctx c).iv[j] = (s.ctx c).iv[j] := by
  rcases cbc1Command_cases P c d o s with ⟨-, e⟩ | ⟨-, -, e⟩ | ⟨hk, hin, -⟩
  · rw [e, ctx_raiseError]
  · rw [e, ctx_raiseError]
  · rw [cbc1Command_of_checks P c d o hk hin, iv_cbc1Done_tail P c d o s h hb]

theorem iv_deriveCommand (P : Primitives) (c : Ctx) (s : State) :
    ((deriveCommand P c s).ctx c).iv = (s.ctx c).iv := by
  rcases deriveCommand_cases P c s with ⟨-, e⟩ | ⟨-, e⟩
  · rw [e, ctx_raiseError]
  · rw [e, ctx_complete, ctx_setSubkeys_same]

/-- What a CBCN does to the IV bytes past the block size (R193, R196). -/
theorem iv_cbcnCommand_tail (P : Primitives) (c : Ctx) (d : Dir) (o : CipherOp) (s : State) {j : Nat} (h : j < 16)
    (hb : (s.ctx c).keyType.blockSize ≤ j) :
    ((cbcnCommand P c d o s).ctx c).iv[j] =
      if c = .session ∧ s.gen = .legacy ∧ (cbcnCommand P c d o s).err = 0 then 0 else (s.ctx c).iv[j] := by
  rcases cbcnCommand_cases P c d o s with ⟨-, e⟩ | ⟨-, -, e⟩ | ⟨-, -, -, e⟩ | ⟨hk, hmod, hin, -⟩
  · rw [e, ctx_raiseError, if_neg (by simp [errValue])]
  · rw [e, ctx_raiseError, if_neg (by simp [errValue])]
  · rw [e, ctx_raiseError, if_neg (by simp [errValue])]
  · rw [cbcnCommand_of_checks P c d o hk hmod hin, ← cbcnDone, iv_cbcnDone_tail P c d o s h hb]
    simp [cbcnDone]

/-- The IV bytes past the block size keep their value, except under the legacy reset (R193). -/
theorem exec_iv_tail {i : Instr} {c : Ctx} {s t : State} (hi : Instr.usesContext i = some c) (ht : exec i s = .next t)
    {j : Nat} (h : j < 16) (hb : (s.ctx c).keyType.blockSize ≤ j) :
    (TookLegacyReset i c s t → (t.ctx c).iv[j] = 0) ∧
      (¬TookLegacyReset i c s t → (t.ctx c).iv[j] = (s.ctx c).iv[j]) := by
  cases i with
  | crc16 => cases hi
  | crc16a => cases hi
  | crc32 => cases hi
  | crc32a => cases hi
  | cbc1 c d o =>
    cases hi
    cases ht
    exact ⟨fun ⟨⟨_, _, hcbcn⟩, _⟩ => (nomatch hcbcn), fun _ => iv_cbc1Command_tail _ c d o s h hb⟩
  | cbcn c d o =>
    cases hi
    cases ht
    rw [iv_cbcnCommand_tail Config.primitives c d o s h hb]
    exact ⟨fun ⟨_, hreset⟩ => if_pos hreset, fun hnot => if_neg fun hreset => hnot ⟨⟨d, o, rfl⟩, hreset⟩⟩
  | derive c =>
    cases hi
    cases ht
    exact ⟨fun ⟨⟨_, _, hcbcn⟩, _⟩ => (nomatch hcbcn), fun _ => by rw [iv_deriveCommand]⟩

/-- Settles O30: the two runs stay apart in the tail of the IV alone, and what a command does to that tail is
`exec_iv_tail`. -/
theorem eightByteBlocksUseEightIvBytes : Obligations.EightByteBlocksUseEightIvBytes := by
  intro i c s w hi h8 hw
  have hapart : ApartFromIvTail (s.ctx c).keyType.blockSize c s (setIv c w s) := by rw [h8]; exact ⟨w, hw, rfl⟩
  obtain ⟨t₁, t₂, h₁, h₂, ⟨v, hv, rfl⟩⟩ := hapart.exec hi
  rw [h8] at hv
  exact ⟨t₁, _, h₁, h₂, by rw [ctx_setIv_same], fun j hj hlt => by simp only [ctx_setIv_same, hv j hj hlt],
    fun hreset j hj hb => (exec_iv_tail hi h₁ hj (h8.trans_le hb)).1 hreset,
    fun hkept j hj hb => (exec_iv_tail hi h₁ hj (h8.trans_le hb)).2 hkept⟩

end Sys2Proof.Machine
end

section
/-! PROOFS of the statements of 60_exceptions.md: the result code of every command (R234), acceptance (R231), and the end
of every run (R235). -/

namespace Sys2Proof.Machine

/-! ### The result code of a command (R233, R234) -/

/-- The result code of the command `i` started in `s`: the first of ERR_NOKEY, ERR_LENGTH and ERR_BOUNDS that applies. -/
def resultCode (i : Instr) (s : State) : BitVec 4 :=
  if lacksKey i s then 2 else if badLength i s then 3 else if s.params.bufBytes < reach i s then 4 else 0

section
variable {i : Instr} {s : State}

theorem resultCode_nokey (hkey : lacksKey i s = true) : resultCode i s = errValue .nokey := by
  rw [resultCode, if_pos hkey]; rfl

theorem resultCode_length (hkey : lacksKey i s = false) (hlen : badLength i s = true) :
    resultCode i s = errValue .length := by
  rw [resultCode, if_neg (by simp [hkey]), if_pos hlen]; rfl

theorem resultCode_bounds (hkey : lacksKey i s = false) (hlen : badLength i s = false)
    (hover : s.params.bufBytes < reach i s) : resultCode i s = errValue .bounds := by
  rw [resultCode, if_neg (by simp [hkey]), if_neg (by simp [hlen]), if_pos hover]; rfl

theorem resultCode_none (hkey : lacksKey i s = false) (hlen : badLength i s = false)
    (hfits : reach i s ≤ s.params.bufBytes) : resultCode i s = errValue .none := by
  rw [resultCode, if_neg (by simp [hkey]), if_neg (by simp [hlen]), if_neg hfits.not_gt]; rfl

theorem lacksKey_eq {c : Ctx} (hi : Instr.usesContext i = some c) : lacksKey i s = !(s.ctx c).kvalid := by
  simp only [lacksKey, hi]

theorem lacksKey_of_not_committed {c : Ctx} (hi : Instr.usesContext i = some c) (hk : (s.ctx c).kvalid = false) :
    lacksKey i s = true := by rw [lacksKey_eq hi, hk]; rfl

theorem lacksKey_of_committed {c : Ctx} (hi : Instr.usesContext i = some c) (hk : (s.ctx c).kvalid = true) :
    lacksKey i s = false := by rw [lacksKey_eq hi, hk]; rfl

/-- A CRC command uses no key and asks nothing of LEN (R146 to R149). -/
theorem checksum_needs_no_key (hi : i = .crc16 ∨ i = .crc16a ∨ i = .crc32 ∨ i = .crc32a) :
    lacksKey i s = false ∧ badLength i s = false := by
  rcases hi with rfl | rfl | rfl | rfl <;> exact ⟨rfl, rfl⟩

end

theorem exec_checksum_err {i : Instr} (hi : i = .crc16 ∨ i = .crc16a ∨ i = .crc32 ∨ i = .crc32a) (s : State) :
    ∃ t, exec i s = .next t ∧ t.err = resultCode i s := by
  obtain ⟨k, crc, hexec⟩ := exec_eq_checksumCommand hi
  obtain ⟨hnext, hreach⟩ := hexec s
  obtain ⟨hkey, hlen⟩ := checksum_needs_no_key (s := s) hi
  refine ⟨_, hnext, ?_⟩
  rcases checksumCommand_cases k crc s with ⟨hover, e⟩ | ⟨hfits, e⟩ <;> rw [e]
  · exact Eq.symm (resultCode_bounds hkey hlen (by rwa [hreach]))
  · exact Eq.symm (resultCode_none hkey hlen (by rwa [hreach]))

theorem cbc1Command_err (P : Primitives) (c : Ctx) (d : Dir) (o : CipherOp) (s : State) :
    (cbc1Command P c d o s).err = resultCode (.cbc1 c d o) s := by
  rcases cbc1Command_cases P c d o s with ⟨hk, e⟩ | ⟨hk, hover, e⟩ | ⟨hk, hfits, r, -, e⟩ <;> rw [e]
  · exact Eq.symm (resultCode_nokey (lacksKey_of_not_committed rfl hk))
  · exact Eq.symm (resultCode_bounds (lacksKey_of_committed rfl hk) rfl hover)
  · exact Eq.symm (resultCode_none (lacksKey_of_committed rfl hk) rfl hfits)

theorem cbcnCommand_err (P : Primitives) (c : Ctx) (d : Dir) (o : CipherOp) (s : State) :
    (cbcnCommand P c d o s).err = resultCode (.cbcn c d o) s := by
  rcases cbcnCommand_cases P c d o s with
    ⟨hk, e⟩ | ⟨hk, hlen, e⟩ | ⟨hk, hlen, hover, e⟩ | ⟨hk, hlen, hfits, r, -, e⟩ <;> rw [e]
  · exact Eq.symm (resultCode_nokey (lacksKey_of_not_committed rfl hk))
  · exact Eq.symm (resultCode_length (lacksKey_of_committed rfl hk) (decide_eq_true hlen))
  · exact Eq.symm (resultCode_bounds (lacksKey_of_committed rfl hk) (decide_eq_false (not_not_intro hlen)) hover)
  · exact Eq.symm (resultCode_none (lacksKey_of_committed rfl hk) (decide_eq_false (not_not_intro hlen)) hfits)

/-- DERIVE touches no byte of BUF, so that only its key can be missing (R177). -/
theorem deriveCommand_err (P : Primitives) (c : Ctx) (s : State) :
    (deriveCommand P c s).err = resultCode (.derive c) s := by
  rcases deriveCommand_cases P c s with ⟨hk, e⟩ | ⟨hk, e⟩ <;> rw [e]
  · exact Eq.symm (resultCode_nokey (lacksKey_of_not_committed rfl hk))
  · exact Eq.symm (resultCode_none (lacksKey_of_committed rfl hk) rfl (Nat.zero_le _))

/-- Every command answers a next state whose ERR is its result code. -/
theorem exec_err (i : Instr) (s : State) : ∃ t, exec i s = .next t ∧ t.err = resultCode i s := by
  cases i with
  | crc16 | crc16a | crc32 | crc32a => exact exec_checksum_err (by simp) s
  | cbc1 c d o => exact ⟨_, rfl, cbc1Command_err Config.primitives c d o s⟩
  | cbcn c d o => exact ⟨_, rfl, cbcnCommand_err Config.primitives c d o s⟩
  | derive c => exact ⟨_, rfl, deriveCommand_err Config.primitives c s⟩

/-- Settles O32: a reserved word ends in `raiseError .opcode`, and `exec_err` is the code of every other word. -/
theorem errorCodesInPriorityOrder : Obligations.ErrorCodesInPriorityOrder := by
  intro s
  rcases engineStep_cases s with ⟨i, hi, e⟩ | ⟨w, hw, e⟩
  · rw [e, hi]
    exact exec_err i s
  · rw [e, hw]
    exact ⟨_, rfl, rfl⟩

/-! ### Acceptance and completion (R231, R235) -/

/-- Settles O39: the write to CMD is `acceptCommand`, and O36 says that the interrupt output is low after it. -/
theorem commandAcceptance : Obligations.CommandAcceptance := by
  intro s v hidle
  obtain ⟨-, -, hirq, -⟩ := interruptFollowsEnableAndDone s
  exact ⟨hostAccess_write_cmd v hidle, hirq v hidle⟩

/-- Settles O6: the engine's step of a busy block, whether its turn is in the script or the script is over. -/
theorem stepRunsTheDecodedCommand : Obligations.StepRunsTheDecodedCommand := by
  intro s i hbusy hi _
  exact ⟨fun hs => (step_script_over hs hbusy).trans (engineStep_of_decode hi),
    fun rest hs => (step_engine hs hbusy).trans (engineStep_of_decode (s := { s with script := rest }) hi)⟩

/-! ### Every run ends (R235, R270) -/

theorem writeReg_script (v : Word) (s : State) (r : Reg) : (writeReg v s r).script = s.script := by
  cases r with
  | keycfg c => simp [writeReg, writeKeycfg]
  | key c w => simp [writeReg, writeKey]
  | iv c w => simp [writeReg]
  | id | ctrl | status | cmd | off | len | crcr | bufsize | k1 | k2 | buf | unmapped => rfl

/-- No access of the host touches the events to come. -/
theorem hostAccess_script (a : Access) (s : State) : (hostAccess a s).script = s.script := by
  cases a with
  | read addr => rcases busRead_cases addr s with ⟨-, e⟩ | ⟨-, -, -, e⟩ | ⟨-, -, e⟩ <;> rw [hostAccess, e] <;> rfl
  | write addr v =>
    rcases busWrite_cases addr v s with ⟨-, e⟩ | ⟨-, -, -, e⟩ | ⟨-, -, -, e⟩ | ⟨-, -, e⟩ <;> rw [hostAccess, e]
    · rfl
    · rfl
    · rfl
    · exact writeReg_script v s _

/-- A step never stops the machine, and it uses up the first event of the script. -/
theorem step_uses_one_event (s : State) : ∃ t, step s = .next t ∧ t.script = s.script.tail := by
  rcases step_cases s with ⟨a, rest, hs, e⟩ | ⟨rest, hs, e⟩ | ⟨rest, hs, hturn⟩
  · exact ⟨_, e, by rw [hostAccess_script, hs]; rfl⟩
  · exact ⟨_, e, by rw [hs]; rfl⟩
  · have htail : s.script.tail = rest := by rcases hs with hs | ⟨hs, rfl⟩ <;> rw [hs] <;> rfl
    rcases hturn with ⟨-, e⟩ | ⟨-, e⟩
    · obtain ⟨t, ht, -⟩ := engineStep_commandEnd { s with script := rest }
      exact ⟨t, e.trans ht, (engineStep_frame ht).script.trans htail.symm⟩
    · exact ⟨_, e, htail.symm⟩

/-- When the script is over, one step leaves the block idle: the engine completes, or it was idle before. -/
theorem step_final_of_script_over {s : State} (hs : s.script = []) : ∃ t, step s = .next t ∧ t.final = true := by
  cases hbusy : s.busy with
  | false => exact ⟨s, step_script_over_idle hs hbusy, by simp [State.final, hs, hbusy]⟩
  | true =>
    obtain ⟨t, ht, -⟩ := engineStep_commandEnd s
    have hframe := engineStep_frame ht
    exact ⟨t, (step_script_over hs hbusy).trans ht, by simp [State.final, hframe.script, hframe.busy, hs]⟩

/-- Settles O9, by induction on the events to come: each step uses up one of them, and the step after the last one ends
what is still in progress. -/
theorem everyRunReachesAFinalState : Obligations.EveryRunReachesAFinalState := by
  intro s
  induction hs : s.script generalizing s with
  | nil =>
    obtain ⟨t, ht, hfinal⟩ := step_final_of_script_over hs
    exact ⟨t, run_succ_of_step (M := core) 0 ht, hfinal⟩
  | cons e rest ih =>
    obtain ⟨u, hu, hrest⟩ := step_uses_one_event s
    obtain ⟨t, hrun, hfinal⟩ := ih u (by rw [hrest, hs]; rfl)
    exact ⟨t, (run_succ_of_step (M := core) _ hu).trans hrun, hfinal⟩

end Sys2Proof.Machine
end
